-- ==== Sys2Proof/Word.lean ====
section
/-! DEFINITION. The plainest data of the model: bytes, and the fixed numbers of like things the part holds
(four rollers, four groups, eight load sets, five tables). -/

namespace Sys2Proof

/-- One byte on the line (13, Byte order). -/
abbrev Byte := BitVec 8

/-- Four like things, one per roller or one per group (00, Roller positions; Terms: coupling group). -/
structure Quad (α : Type) where
  q0 : α
  q1 : α
  q2 : α
  q3 : α
deriving DecidableEq, Repr

/-- The four indices, ascending. -/
def four : List (Fin 4) := [0, 1, 2, 3]

/-- The thing at one index. -/
def Quad.get {α : Type} (q : Quad α) : Fin 4 → α
  | 0 => q.q0
  | 1 => q.q1
  | 2 => q.q2
  | 3 => q.q3

/-- The same four with one of them replaced. -/
def Quad.set {α : Type} (q : Quad α) (i : Fin 4) (a : α) : Quad α :=
  match i with
  | 0 => { q with q0 := a }
  | 1 => { q with q1 := a }
  | 2 => { q with q2 := a }
  | 3 => { q with q3 := a }

/-- Four equal things. -/
def Quad.all {α : Type} (a : α) : Quad α := ⟨a, a, a, a⟩

/-- Each of the four computed from its index. -/
def Quad.of {α : Type} (f : Fin 4 → α) : Quad α := ⟨f 0, f 1, f 2, f 3⟩

/-- Each of the four replaced by a function of its index and itself. -/
def Quad.mapIdx {α β : Type} (f : Fin 4 → α → β) (q : Quad α) : Quad β :=
  ⟨f 0 q.q0, f 1 q.q1, f 2 q.q2, f 3 q.q3⟩

/-- The four, ascending by index. -/
def Quad.toList {α : Type} (q : Quad α) : List α := [q.q0, q.q1, q.q2, q.q3]

/-- Eight like things, one per load set (08 Section 8.1). -/
structure Octo (α : Type) where
  o0 : α
  o1 : α
  o2 : α
  o3 : α
  o4 : α
  o5 : α
  o6 : α
  o7 : α
deriving DecidableEq, Repr

/-- The eight indices, ascending. -/
def eight : List (Fin 8) := [0, 1, 2, 3, 4, 5, 6, 7]

/-- The thing at one index. -/
def Octo.get {α : Type} (q : Octo α) : Fin 8 → α
  | 0 => q.o0
  | 1 => q.o1
  | 2 => q.o2
  | 3 => q.o3
  | 4 => q.o4
  | 5 => q.o5
  | 6 => q.o6
  | 7 => q.o7

/-- The same eight with one of them replaced. -/
def Octo.set {α : Type} (q : Octo α) (i : Fin 8) (a : α) : Octo α :=
  match i with
  | 0 => { q with o0 := a }
  | 1 => { q with o1 := a }
  | 2 => { q with o2 := a }
  | 3 => { q with o3 := a }
  | 4 => { q with o4 := a }
  | 5 => { q with o5 := a }
  | 6 => { q with o6 := a }
  | 7 => { q with o7 := a }

/-- Eight equal things. -/
def Octo.all {α : Type} (a : α) : Octo α := ⟨a, a, a, a, a, a, a, a⟩

/-- Each of the eight computed from its index. -/
def Octo.of {α : Type} (f : Fin 8 → α) : Octo α :=
  ⟨f 0, f 1, f 2, f 3, f 4, f 5, f 6, f 7⟩

/-- The eight, ascending by index. -/
def Octo.toList {α : Type} (q : Octo α) : List α :=
  [q.o0, q.o1, q.o2, q.o3, q.o4, q.o5, q.o6, q.o7]

/-- The five tables (08 Section 8.1). -/
inductive Table where
  | cell
  | slots
  | rollers
  | groups
  | loads
deriving DecidableEq, Repr

/-- The five tables in table-code order. -/
def tablesInOrder : List Table := [.cell, .slots, .rollers, .groups, .loads]

/-- Five like things, one per table. -/
structure Five (α : Type) where
  cell : α
  slots : α
  rollers : α
  groups : α
  loads : α
deriving DecidableEq, Repr

/-- The thing of one table. -/
def Five.get {α : Type} (q : Five α) : Table → α
  | .cell => q.cell
  | .slots => q.slots
  | .rollers => q.rollers
  | .groups => q.groups
  | .loads => q.loads

/-- The same five with one of them replaced. -/
def Five.set {α : Type} (q : Five α) (t : Table) (a : α) : Five α :=
  match t with
  | .cell => { q with cell := a }
  | .slots => { q with slots := a }
  | .rollers => { q with rollers := a }
  | .groups => { q with groups := a }
  | .loads => { q with loads := a }

/-- Five equal things. -/
def Five.all {α : Type} (a : α) : Five α := ⟨a, a, a, a, a⟩

/-- Each of the five replaced by a function of its table and itself. -/
def Five.mapT {α β : Type} (f : Table → α → β) (q : Five α) : Five β :=
  ⟨f .cell q.cell, f .slots q.slots, f .rollers q.rollers, f .groups q.groups, f .loads q.loads⟩

/-- The five in table-code order. -/
def Five.toList {α : Type} (q : Five α) : List α := [q.cell, q.slots, q.rollers, q.groups, q.loads]

end Sys2Proof
end

