-- ==== Sys2Proof/Config.lean ====
section
/-! DEFINITION. What is fixed for the part (its code and revision, its capacities) and the one value the spec
leaves open, as an opaque constant. -/

namespace Sys2Proof.Config

/-- The part code of the SJ48 (13 Section 13.4, IDENTIFY). -/
def partCode : Nat := 0x3A48

/-- The revision number (13 Section 13.4, IDENTIFY). -/
def revision : Nat := 1

/-- Capacity of the Pending Change List (08 R144). -/
def changesMax : Nat := 8

/-- Capacity of the reply queue (10 R164). -/
def queueMax : Nat := 4

/-- Places of the record store (11 R173). -/
def tracePlaces : Nat := 512

/-- The wait of an accepted RESTART, in microseconds (12 R184: 10 ms). -/
def restartWait : Nat := 10000

/-- FREE VALUE (log 16, DESIGN CHOICE, safe). A reference distance R_i is signed 64-bit (05 Section 5.1, R81); the spec states no
result for an advance that passes that range. The value the part then holds is this function of the exact sum. -/
opaque openReference : Int → BitVec 64

end Sys2Proof.Config
end

