-- ==== Sys2Proof/Syntax.lean ====
section
/-! DEFINITION. The commands: one constructor per row of spec/opcode_table.json, with the operands the model gives it. -/

namespace Sys2Proof

/-- The two ports. A frame that arrives at Port M is on its outbound pass, one that arrives at Port D on its
return pass (01 Section 1.1). -/
inductive Port where
  | m
  | d
deriving DecidableEq, Repr

/-- A frame as its sender gives it with its header (log 6): all its bytes as they come on the link, and how many commits of CELL are applied
after the header and before its target byte passes (10 R162; log 12). -/
structure LinkFrame where
  bytes : List Byte
  ahead : Nat
deriving DecidableEq, Repr

/-- A command. The rows of the opcode table in its order. Operands of service requests are the raw codes of the
request's payload (13 Section 13.4), so that a code outside its range can be refused as the rules say. -/
inductive Instr where
  /-- POWER_UP (R7). -/
  | powerUp
  /-- RESET_ASSERT (R9): how many bytes of the last frame at Port D and at Port M have been sent (log 18). -/
  | resetAssert (sentAtD sentAtM : Nat)
  /-- RESET_RELEASE (R9). -/
  | resetRelease
  /-- STORE_LOAD_COMPLETE (R183). -/
  | storeLoadComplete
  /-- PASS_HEADER (R6): the port the frame arrives at and the frame. -/
  | passHeader (port : Port) (frame : LinkFrame)
  /-- FRAME_CUT_SHORT (R4). -/
  | frameCutShort (port : Port)
  /-- FIRST_OUT_FIELD (R29). -/
  | firstOutField
  /-- OUT_FIELD_PASSAGE (R31). -/
  | outFieldPassage (roller : Fin 4)
  /-- IN_FIELD_PASSAGE (R25). -/
  | inFieldPassage (roller : Fin 4)
  /-- REPORT_FIELD_ARRIVAL (R36). -/
  | reportFieldArrival
  /-- SERVICE_AREA_RETURN (R165). -/
  | serviceAreaReturn
  /-- OUTBOUND_CHECK_WORD (R162). -/
  | outboundCheckWord
  /-- SERVICE_COMPLETE (R164): which of the requests in service, oldest first. -/
  | serviceComplete (which : Nat)
  /-- RETURN_CHECK_WORD (R14): the microseconds that passed since time last passed, and the order in which the
  channels take the cycle. -/
  | returnCheckWord (elapsed : Nat) (order : List (Fin 4))
  /-- STAGE_TIMER_EXPIRY (R108). -/
  | stageTimerExpiry (roller : Fin 4)
  /-- LOAD_BLEND_END (R64). -/
  | loadBlendEnd (group : Fin 4)
  /-- SETTLE_TIMER_EXPIRY (R125). -/
  | settleTimerExpiry (group : Fin 4)
  /-- TRACK_BLEND_IN_END (R85). -/
  | trackBlendInEnd (group : Fin 4)
  /-- TRACK_BLEND_OUT_END (R85). -/
  | trackBlendOutEnd (group : Fin 4)
  /-- TRACE_RECORD_APPEND (R174). -/
  | traceRecordAppend
  /-- LINE_SILENCE_EXPIRY (R18). -/
  | lineSilenceExpiry
  /-- CERT_ASSERT (R157). -/
  | certAssert
  /-- CERT_RELEASE (R159). -/
  | certRelease
  /-- SAVE_COMPLETE (R182): whether the read-back verified. -/
  | saveComplete (verified : Bool)
  /-- RESTART_EFFECT (R185). -/
  | restartEffect
  /-- IDENTIFY (R167). -/
  | identify
  /-- READ_STATUS (R168). -/
  | readStatus
  /-- CLEAR_FLAGS (R170): the sticky flag block as mask, byte 0 in bits 7..0. -/
  | clearFlags (mask : BitVec 64)
  /-- START (R10). -/
  | start
  /-- HALT (R11). -/
  | halt
  /-- GROUP:ENGAGE (R116). -/
  | groupEngage (group : Byte)
  /-- GROUP:RUN (R118). -/
  | groupRun (group : Byte)
  /-- GROUP:TRACK (R119). -/
  | groupTrack (group : Byte)
  /-- GROUP:UNTRACK (R119). -/
  | groupUntrack (group : Byte)
  /-- GROUP:STOP (R120). -/
  | groupStop (group : Byte)
  /-- GROUP:DISENGAGE (R121). -/
  | groupDisengage (group : Byte)
  /-- GROUP:CLEAR (R122). -/
  | groupClear (group : Byte)
  /-- READ_ENTRY (R138). -/
  | readEntry (table index copy : Byte)
  /-- WRITE_ENTRY (R139): the entry's bytes in the layout of 13 Section 13.5. -/
  | writeEntry (table index : Byte) (entry : List Byte)
  /-- SET_LIVE on (R142). -/
  | setLiveOn (table : Byte)
  /-- SET_LIVE off (R142). -/
  | setLiveOff (table : Byte)
  /-- COMMIT (R143): table mask, presence (bit 0 effective cycle given, bit 1 blend cycles given), effective cycle, blend cycles. -/
  | commit (mask presence : Byte) (effective : BitVec 64) (blend : BitVec 16)
  /-- CANCEL (R146). -/
  | cancel (mask : Byte)
  /-- LOCK in mode LOCK (R154). -/
  | lock (mask : Byte)
  /-- LOCK in mode UNLOCK (R154). -/
  | unlock (mask : Byte)
  /-- LOCK in mode LOCK_DOWN (R154). -/
  | lockDown (mask : Byte)
  /-- FREEZE (R156). -/
  | freeze
  /-- THAW (R156). -/
  | thaw
  /-- TRACE_SET (R173): group, decimation, enable. -/
  | traceSet (group decimation enable : Byte)
  /-- READ_TRACE (R177). -/
  | readTrace
  /-- STORE_SAVE (R181). -/
  | storeSave
  /-- RESTART (R184). -/
  | restart
  /-- POWER_DOWN (R182). -/
  | powerDown
deriving DecidableEq, Repr

end Sys2Proof
end

