-- ==== Sys2Proof/WellFormed.lean ====
section
/-! DEFINITION. Which commands a sender may form. exec answers for every command; these are the commands that stand
for an event of the line. -/

namespace Sys2Proof

/-- A request payload holds 64 bytes (13, Service area), two of which name the table and the index of a WRITE_ENTRY. -/
def entryBytesMax : Nat := 62

/-- An order of the channels names no roller twice. -/
def orderOk (order : List (Fin 4)) : Bool := decide order.Nodup

/-- Checks on a command's operands: a header has five bytes (13 Section 13.1), an entry fits the
payload, an order of the channels names each at most once. -/
def Instr.wellFormed : Instr → Bool
  | .passHeader _ frame => decide (5 ≤ frame.bytes.length)
  | .writeEntry _ _ entry => decide (entry.length ≤ entryBytesMax)
  | .returnCheckWord _ order => orderOk order
  | _ => true

end Sys2Proof
end

