-- ==== Sys2Proof/Decode.lean ====
section
/-! DEFINITION. The block fetches no instruction and no row of spec/opcode_table.json gives bits (its fields are empty for
all 53 rows), so no word spells a command (log 34). -/

namespace Sys2Proof

/-- The command a word spells by the table's bits: none, since no row has any. -/
def decodeTableWord (_nbits _w : Nat) : Option Instr := none

end Sys2Proof
end

