-- ==== Sys2Proof/Machine/Arith.lean ====
section
/-! DEFINITION. The exact arithmetic of the part: its three roundings, clamp, wrapping, saturation (00, Arithmetic and
rounding), byte order (13) and the check word (00, Byte order on the line; 01 R3). -/

namespace Sys2Proof.Machine

/-- Round half away: the nearest integer to n ÷ d, an exact half away from zero (00, Arithmetic and rounding). -/
def roundHalfAway (n : Int) (d : Nat) : Int :=
  let q : Int := ((2 * n.natAbs + d) / (2 * d) : Nat)
  if n < 0 then -q else q

/-- Round half up, of two non-negative numbers (00, Arithmetic and rounding). -/
def roundHalfUp (n d : Nat) : Nat := (2 * n + d) / (2 * d)

/-- floor(n ÷ d) for a positive d (00, Arithmetic and rounding). -/
def floorDiv (n : Int) (d : Nat) : Int := n / (d : Int)

/-- The remainder kept with floorDiv: the numerator less the quotient times the divisor. -/
def floorRem (n : Int) (d : Nat) : Int := n - floorDiv n d * d

/-- clamp(x, p ± s) (00, Arithmetic and rounding). -/
def clampAround (x p : Int) (s : Nat) : Int := max (p - s) (min x (p + s))

/-- clamp(x, ±L) (00, Arithmetic and rounding). -/
def clampAbs (x : Int) (l : Nat) : Int := clampAround x 0 l

/-- x saturating at top (00, Counts and arithmetic on the line). -/
def satAt (top x : Nat) : Nat := min top x

/-- Two's complement wrap to signed 64 bits (03 R48). -/
def wrap64 (x : Int) : Int := Int.bmod x (2 ^ 64)

/-- The sign of a speed, applied to a magnitude (04 R62). -/
def withSignOf (v : Int) (magnitude : Nat) : Int :=
  if 0 < v then magnitude else if v < 0 then -magnitude else 0

/-- The step a rate a allows in k cycles of T µs, at least 1 mm/s (04 R71, 05 R89). -/
def rateStep (a k t : Nat) : Nat := max 1 (a * k * t / 1000000)

/-- n bytes of x, least significant first. -/
def leBytes : Nat → Nat → List Byte
  | 0, _ => []
  | n + 1, x => BitVec.ofNat 8 x :: leBytes n (x / 256)

/-- n bytes of a signed x in two's complement, least significant first. -/
def leBytesInt (n : Nat) (x : Int) : List Byte := leBytes n (x % (256 ^ n : Nat)).toNat

/-- The number whose bytes these are, least significant first. -/
def fromLE : List Byte → Nat
  | [] => 0
  | b :: bs => b.toNat + 256 * fromLE bs

/-- The signed number whose two's complement bytes these are, least significant first. -/
def fromLEInt (bs : List Byte) : Int := Int.bmod (fromLE bs) (256 ^ bs.length)

/-- n bytes from an offset. -/
def sliceAt (bs : List Byte) (off n : Nat) : List Byte := (bs.drop off).take n

/-- The list with the bytes of patch placed from an offset on, as far as the list reaches. -/
def patchAt : List Byte → Nat → List Byte → List Byte
  | [], _, _ => []
  | _ :: bs, 0, p :: ps => p :: patchAt bs 0 ps
  | b :: bs, 0, [] => b :: bs
  | b :: bs, off + 1, ps => b :: patchAt bs off ps

/-- The bits of b set where the flags are, flag 0 in bit 0. -/
def bitsOf : List Bool → Nat
  | [] => 0
  | f :: fs => f.toNat + 2 * bitsOf fs

/-- One bit of the reflected check: generator 0x04C11DB7 with its bits in reverse order (log 21). -/
def crcBit (c : BitVec 32) : BitVec 32 :=
  if c.getLsbD 0 then (c >>> 1) ^^^ 0xEDB88320#32 else c >>> 1

/-- One byte of the check. -/
def crcByte (c : BitVec 32) (b : Byte) : BitVec 32 :=
  let x := c ^^^ b.setWidth 32
  crcBit (crcBit (crcBit (crcBit (crcBit (crcBit (crcBit (crcBit x)))))))

/-- The check over some bytes: initial value all ones, reflected input and output, final complement. -/
def crc32 (bs : List Byte) : BitVec 32 := ~~~ (bs.foldl crcByte (BitVec.allOnes 32))

/-- A check word as it is sent. -/
def checkBytes (c : BitVec 32) : List Byte := leBytes 4 c.toNat

end Sys2Proof.Machine
end

