-- ==== Sys2Proof/Machine/Tables.lean ====
section
/-! DEFINITION. The five tables: their entries, field by field (08 R133 to R135), the factory defaults, reading and replacing an
entry, and the byte layout of an entry (13 Section 13.5). -/

namespace Sys2Proof.Machine

/-- The entry of CELL (08 R133). -/
structure CellEntry where
  station : Nat
  cycleUs : Nat
  toleranceUs : Nat
  missLimit : Nat
  standstill : Nat
  slotAreaLen : Nat
  report : Option Nat
deriving DecidableEq, Repr

/-- An entry of SLOTS (08 R133): an ABSENT entry holds no offsets. -/
inductive SlotsEntry where
  | absent
  | present (outOffset inOffset : Nat)
deriving DecidableEq, Repr

/-- An entry of ROLLERS (08 R134). -/
structure RollersEntry where
  scale : Nat
  direction : Int
  window : Nat
  jumpLimit : Nat
  forceLimit : Nat
  sampleMissLimit : Nat
  vmax : Nat
  aMax : Nat
  dStop : Nat
  stageTimeout : Nat
  group : Option Nat
  trim : Int
deriving DecidableEq, Repr

/-- An entry of GROUPS (08 R135). -/
structure GroupsEntry where
  mass : Nat
  loadSet : Nat
  kp : Nat
  corrMax : Nat
  slipLimit : Nat
  trackBlend : Nat
deriving DecidableEq, Repr

/-- An entry of LOADS (08 R135), and the four road-load coefficients a group takes from it (04 R57). -/
structure LoadsEntry where
  a : Nat
  b : Nat
  c : Nat
  vCreep : Nat
deriving DecidableEq, Repr

/-- One copy of all five tables (08 R132). -/
structure Tables where
  cell : CellEntry
  slots : Quad SlotsEntry
  rollers : Quad RollersEntry
  groups : Quad GroupsEntry
  loads : Octo LoadsEntry
deriving DecidableEq, Repr

/-- An entry of any table. -/
inductive Entry where
  | cell (e : CellEntry)
  | slots (e : SlotsEntry)
  | rollers (e : RollersEntry)
  | groups (e : GroupsEntry)
  | loads (e : LoadsEntry)
deriving DecidableEq, Repr

/-- A place an entry stands at: a table and an index inside its entries (08 Section 8.1). -/
inductive Place where
  | cell
  | slots (i : Fin 4)
  | rollers (i : Fin 4)
  | groups (i : Fin 4)
  | loads (i : Fin 8)
deriving DecidableEq, Repr

/-- The table a place belongs to. -/
def Place.table : Place → Table
  | .cell => .cell
  | .slots _ => .slots
  | .rollers _ => .rollers
  | .groups _ => .groups
  | .loads _ => .loads

/-- The factory default of CELL (08 R133). -/
def factoryCell : CellEntry :=
  { station := 240, cycleUs := 1000, toleranceUs := 50, missLimit := 2, standstill := 30, slotAreaLen := 0, report := none }

/-- The factory default of each ROLLERS entry (08 R134). -/
def factoryRollers : RollersEntry :=
  { scale := 0, direction := 1, window := 1, jumpLimit := 1, forceLimit := 1, sampleMissLimit := 0, vmax := 1, aMax := 100,
    dStop := 100, stageTimeout := 10, group := none, trim := 0 }

/-- The factory default of each GROUPS entry (08 R135). -/
def factoryGroups : GroupsEntry :=
  { mass := 1500, loadSet := 0, kp := 0, corrMax := 0, slipLimit := 1, trackBlend := 1 }

/-- The factory default of each LOADS entry (08 R135). -/
def factoryLoads : LoadsEntry := { a := 0, b := 0, c := 0, vCreep := 500 }

/-- The factory defaults of all five tables (08 R133 to R135). -/
def factoryTables : Tables :=
  { cell := factoryCell, slots := Quad.all .absent, rollers := Quad.all factoryRollers,
    groups := Quad.all factoryGroups, loads := Octo.all factoryLoads }

/-- The entry at a place. -/
def Tables.entryAt (t : Tables) : Place → Entry
  | .cell => .cell t.cell
  | .slots i => .slots (t.slots.get i)
  | .rollers i => .rollers (t.rollers.get i)
  | .groups i => .groups (t.groups.get i)
  | .loads i => .loads (t.loads.get i)

/-- The copy with the entry at a place replaced whole. An entry of another table leaves the copy as it is. -/
def Tables.putEntry (t : Tables) : Place → Entry → Tables
  | .cell, .cell e => { t with cell := e }
  | .slots i, .slots e => { t with slots := t.slots.set i e }
  | .rollers i, .rollers e => { t with rollers := t.rollers.set i e }
  | .groups i, .groups e => { t with groups := t.groups.set i e }
  | .loads i, .loads e => { t with loads := t.loads.set i e }
  | _, _ => t

/-- One copy with a chosen set of tables taken from another (08 R137, R143, R148). -/
def Tables.merge (named : Table → Bool) (src dst : Tables) : Tables :=
  { cell := if named .cell then src.cell else dst.cell
    slots := if named .slots then src.slots else dst.slots
    rollers := if named .rollers then src.rollers else dst.rollers
    groups := if named .groups then src.groups else dst.groups
    loads := if named .loads then src.loads else dst.loads }

/-- The table of a code (13 Section 13.2), none for a code that is not one of the five. -/
def tableOfCode (c : Nat) : Option Table :=
  match c with
  | 0 => some .cell
  | 1 => some .slots
  | 2 => some .rollers
  | 3 => some .groups
  | 4 => some .loads
  | _ => none

/-- The code of a table (13 Section 13.2). -/
def codeOfTable : Table → Nat
  | .cell => 0
  | .slots => 1
  | .rollers => 2
  | .groups => 3
  | .loads => 4

/-- The place of a table and an index, none when the index lies outside the table's entries (08 Section 8.1). -/
def placeOf (t : Table) (i : Nat) : Option Place :=
  match t with
  | .cell => if i = 0 then some .cell else none
  | .slots => if h : i < 4 then some (.slots ⟨i, h⟩) else none
  | .rollers => if h : i < 4 then some (.rollers ⟨i, h⟩) else none
  | .groups => if h : i < 4 then some (.groups ⟨i, h⟩) else none
  | .loads => if h : i < 8 then some (.loads ⟨i, h⟩) else none

/-- Bytes of an entry of a table (13 Section 13.5). -/
def entrySize : Table → Nat
  | .cell => 12
  | .slots => 5
  | .rollers => 30
  | .groups => 11
  | .loads => 10

/-- The encoding of an offset or of its absence (13 R186). -/
def offsetBytes : Option Nat → List Byte
  | none => leBytes 2 65535
  | some n => leBytes 2 n

/-- An offset read, 65,535 standing for an absent one (13 R186). -/
def offsetOf (bs : List Byte) : Option Nat :=
  if fromLE bs = 65535 then none else some (fromLE bs)

/-- The encoding of ROLLERS.group, 255 standing for NONE (13 R186). -/
def groupCode : Option Nat → Nat
  | none => 255
  | some g => g

/-- ROLLERS.group read (13 R186). -/
def groupOf (n : Nat) : Option Nat := if n = 255 then none else some n

/-- The bytes of a CELL entry (13 Section 13.5). -/
def cellBytes (e : CellEntry) : List Byte :=
  leBytes 1 e.station ++ leBytes 2 e.cycleUs ++ leBytes 2 e.toleranceUs ++ leBytes 1 e.missLimit ++ leBytes 2 e.standstill
    ++ leBytes 2 e.slotAreaLen ++ offsetBytes e.report

/-- The bytes of a SLOTS entry (13 Section 13.5): an ABSENT entry reads back with offsets of 65,535 (R186). -/
def slotsBytes : SlotsEntry → List Byte
  | .absent => leBytes 1 0 ++ leBytes 2 65535 ++ leBytes 2 65535
  | .present o i => leBytes 1 1 ++ leBytes 2 o ++ leBytes 2 i

/-- The bytes of a ROLLERS entry (13 Section 13.5). -/
def rollersBytes (e : RollersEntry) : List Byte :=
  leBytes 4 e.scale ++ leBytesInt 1 e.direction ++ leBytes 1 e.window ++ leBytes 4 e.jumpLimit ++ leBytes 4 e.forceLimit
    ++ leBytes 1 e.sampleMissLimit ++ leBytes 4 e.vmax ++ leBytes 2 e.aMax ++ leBytes 2 e.dStop ++ leBytes 2 e.stageTimeout
    ++ leBytes 1 (groupCode e.group) ++ leBytesInt 4 e.trim

/-- The bytes of a GROUPS entry (13 Section 13.5). -/
def groupsBytes (e : GroupsEntry) : List Byte :=
  leBytes 2 e.mass ++ leBytes 1 e.loadSet ++ leBytes 2 e.kp ++ leBytes 2 e.corrMax ++ leBytes 2 e.slipLimit ++ leBytes 2 e.trackBlend

/-- The bytes of a LOADS entry (13 Section 13.5). -/
def loadsBytes (e : LoadsEntry) : List Byte :=
  leBytes 2 e.a ++ leBytes 4 e.b ++ leBytes 2 e.c ++ leBytes 2 e.vCreep

/-- The bytes of an entry. -/
def entryBytes : Entry → List Byte
  | .cell e => cellBytes e
  | .slots e => slotsBytes e
  | .rollers e => rollersBytes e
  | .groups e => groupsBytes e
  | .loads e => loadsBytes e

/-- A CELL entry read from its bytes. -/
def cellOf (bs : List Byte) : CellEntry :=
  { station := fromLE (sliceAt bs 0 1), cycleUs := fromLE (sliceAt bs 1 2), toleranceUs := fromLE (sliceAt bs 3 2)
    missLimit := fromLE (sliceAt bs 5 1), standstill := fromLE (sliceAt bs 6 2), slotAreaLen := fromLE (sliceAt bs 8 2)
    report := offsetOf (sliceAt bs 10 2) }

/-- A SLOTS entry read from its bytes: none when the presence code is neither 0 nor 1, which is outside the field's range (R186).
The offsets of an ABSENT entry are not read (08 R133). -/
def slotsOf (bs : List Byte) : Option SlotsEntry :=
  match fromLE (sliceAt bs 0 1) with
  | 0 => some .absent
  | 1 => some (.present (fromLE (sliceAt bs 1 2)) (fromLE (sliceAt bs 3 2)))
  | _ => none

/-- A ROLLERS entry read from its bytes. -/
def rollersOf (bs : List Byte) : RollersEntry :=
  { scale := fromLE (sliceAt bs 0 4), direction := fromLEInt (sliceAt bs 4 1), window := fromLE (sliceAt bs 5 1)
    jumpLimit := fromLE (sliceAt bs 6 4), forceLimit := fromLE (sliceAt bs 10 4), sampleMissLimit := fromLE (sliceAt bs 14 1)
    vmax := fromLE (sliceAt bs 15 4), aMax := fromLE (sliceAt bs 19 2), dStop := fromLE (sliceAt bs 21 2)
    stageTimeout := fromLE (sliceAt bs 23 2), group := groupOf (fromLE (sliceAt bs 25 1)), trim := fromLEInt (sliceAt bs 26 4) }

/-- A GROUPS entry read from its bytes. -/
def groupsOf (bs : List Byte) : GroupsEntry :=
  { mass := fromLE (sliceAt bs 0 2), loadSet := fromLE (sliceAt bs 2 1), kp := fromLE (sliceAt bs 3 2)
    corrMax := fromLE (sliceAt bs 5 2), slipLimit := fromLE (sliceAt bs 7 2), trackBlend := fromLE (sliceAt bs 9 2) }

/-- A LOADS entry read from its bytes. -/
def loadsOf (bs : List Byte) : LoadsEntry :=
  { a := fromLE (sliceAt bs 0 2), b := fromLE (sliceAt bs 2 4), c := fromLE (sliceAt bs 6 2), vCreep := fromLE (sliceAt bs 8 2) }

/-- An entry of a table read from its bytes. -/
def entryOf (t : Table) (bs : List Byte) : Option Entry :=
  match t with
  | .cell => some (.cell (cellOf bs))
  | .slots => (slotsOf bs).map .slots
  | .rollers => some (.rollers (rollersOf bs))
  | .groups => some (.groups (groupsOf bs))
  | .loads => some (.loads (loadsOf bs))

/-- The contents of the store image: the entries in table-code order (13 Section 13.5). -/
def tablesBytes (t : Tables) : List Byte :=
  cellBytes t.cell ++ (t.slots.toList.flatMap slotsBytes ++ (t.rollers.toList.flatMap rollersBytes
    ++ (t.groups.toList.flatMap groupsBytes ++ t.loads.toList.flatMap loadsBytes)))

/-- The tables read from the contents of an image; a presence code that is no code leaves the roller ABSENT. -/
def tablesOf (bs : List Byte) : Tables :=
  { cell := cellOf (sliceAt bs 0 12)
    slots := Quad.of fun i => (slotsOf (sliceAt bs (12 + 5 * i.val) 5)).getD .absent
    rollers := Quad.of fun i => rollersOf (sliceAt bs (32 + 30 * i.val) 30)
    groups := Quad.of fun i => groupsOf (sliceAt bs (152 + 11 * i.val) 11)
    loads := Octo.of fun i => loadsOf (sliceAt bs (196 + 10 * i.val) 10) }

end Sys2Proof.Machine
end

