-- ==== Sys2Proof/Machine/State.lean ====
section
/-! DEFINITION. The state of the part, as plain data: every piece of state the chapters give it (INVENTORY.md lists each with its
rule), the queue of commands that wait, and the state right after power-up. -/

namespace Sys2Proof.Machine

/-- Why the part could stop with a fault. It has no constructor: no command of the SJ48 stops the part (INVENTORY.md, Faults), so
nothing raises a fault; this is safe. -/
inductive Fault where
deriving DecidableEq, Repr

/-- Why a command could be refused. -/
inductive Refusal where
  /-- Raised by an arm of exec whose command is not modelled yet; safe. No arm raises it now. -/
  | notModelled (mnemonic : String)
deriving DecidableEq, Repr

/-- The operating states (01 Section 1.3). -/
inductive OpState where
  | starting
  | bypass
  | active
deriving DecidableEq, Repr

/-- The sticky flags of the line class (10 R169; 01 Section 1.7). -/
structure LineFlags where
  checkErr : Bool
  shortFrame : Bool
  duplicate : Bool
  missed : Bool
  resync : Bool
  ringLost : Bool
  offTime : Bool
  lateReply : Bool
deriving DecidableEq, Repr

/-- The Line Port Unit's state (01 R22). The two timers count microseconds; none is stopped. -/
structure Lpu where
  opState : OpState
  ext : Option Nat
  last : Option (BitVec 16)
  resyncDue : Bool
  silenceTimer : Option Nat
  arrivalTimer : Option Nat
  flags : LineFlags
  checkErrCount : Nat
  missedCount : Nat
deriving DecidableEq, Repr

/-- A control word and a speed setpoint (02 R27). -/
structure Command where
  enable : Bool
  release : Bool
  setpoint : Int
deriving DecidableEq, Repr

/-- ENABLE and RELEASE clear and setpoint 0 (02 R28, initial set). -/
def Command.clear : Command := ⟨false, false, 0⟩

/-- A setpoint set: a control word and a setpoint for each roller (02 R28, 05 R93). -/
abbrev SetpointSet := Quad Command

/-- How a pass is handled, fixed when its header has arrived (01 R2, R6). -/
inductive PassMode where
  /-- Not a cycle frame: forwarded byte for byte (R2). -/
  | plain
  /-- A cycle frame whose header arrived in STARTING or while RESET was asserted: forwarded unchanged (R7, R9). -/
  | starting
  | bypass
  | active
deriving DecidableEq, Repr

/-- A frame in passage in one direction (01 R1 to R6). -/
structure Pass where
  /-- The frame's bytes as they come on the link. -/
  rx : List Byte
  /-- The frame's bytes as forwarded, with the writes made so far. -/
  tx : List Byte
  mode : PassMode
  /-- The header's slot area length is below CELL.slot_area_len (R13). -/
  short : Bool
  /-- The part has placed a byte of its own into the frame on this pass (R3). -/
  written : Bool
  /-- A RESTART took effect during the pass: no further writes (R7). -/
  cut : Bool
  /-- A HALT took effect during the pass: its in-fields are discarded (R12). -/
  voided : Bool
  /-- CELL.station as the target byte meets it: that of the header, then that of each commit of CELL applied before the byte passes (10 R162;
  log 12). -/
  station : Nat
  /-- How many more commits of CELL are applied before the target byte passes (log 12). -/
  ahead : Nat
  /-- The set latched for this frame (02 R29). -/
  latched : Option SetpointSet
  /-- The number of the reply-queue entry this frame answers (10 R165). -/
  matched : Option Nat
deriving DecidableEq, Repr

/-- A frame as it left a port: its bytes, and whether it ended with a link abort (01 R4, R9). The model's own record (log 24). -/
structure SentFrame where
  bytes : List Byte
  aborted : Bool
deriving DecidableEq, Repr

/-- The four status indications the part reads (02 R24). -/
structure Status where
  ready : Bool
  enabled : Bool
  brakeOpen : Bool
  fault : Bool
deriving DecidableEq, Repr

/-- One sample: the four items of an in-field (02 R24, R25). -/
structure Sample where
  status : Status
  stamp : BitVec 8
  count : BitVec 32
  force : Int
deriving DecidableEq, Repr

/-- The group states (07 R113). -/
inductive GroupState where
  | idle
  | engaging
  | hold
  | follow
  | track
  | stopping
  | disengaging
  | faulted
deriving DecidableEq, Repr

/-- The stop causes (07 R113). -/
inductive StopCause where
  | none
  | request
  | trackLost
  | rollerFault
deriving DecidableEq, Repr

/-- The blend directions (05 Section 5.1). -/
inductive BlendDir where
  | none
  | inward
  | steady
  | outward
deriving DecidableEq, Repr

/-- A group's state as it is reported: with its stop cause, blend direction and wind-down mark (07 R130, 13 Section 13.2). -/
structure GroupView where
  state : GroupState
  cause : StopCause
  dir : BlendDir
  windDown : Bool
deriving DecidableEq, Repr

/-- The seven summary indications (02 R35). -/
structure Summary where
  line : Bool
  roller : Bool
  latch : Bool
  group : Bool
  table : Bool
  trace : Bool
  store : Bool
deriving DecidableEq, Repr

/-- The report image (02 R34). Its operating state is ACTIVE always. -/
structure ReportImage where
  freeze : Bool
  pendingCount : Nat
  summary : Summary
  cycle : Nat
  groups : Quad GroupView
  speeds : Quad Int
deriving DecidableEq, Repr

/-- The field positions and the report offset taken at START (02 R23). -/
structure SlotMap where
  slots : Quad SlotsEntry
  report : Option Nat
deriving DecidableEq, Repr

/-- The Slot Engine's state (02 R37). -/
structure SlotEngine where
  positions : Option SlotMap
  buffers : Quad (Option Sample)
  current : SetpointSet
  image : Option ReportImage
deriving DecidableEq, Repr

/-- The causes a fault latch can hold; the latch is set when it holds one or more (03 Section 3.1). -/
structure Latch where
  countJump : Bool
  sampleStale : Bool
  driveFault : Bool
  seqTimeout : Bool
deriving DecidableEq, Repr

/-- The sticky flags of the roller class (10 R169). -/
structure RollerFlags where
  countJump : Bool
  sampleStale : Bool
  driveFault : Bool
  forceSat : Bool
  seqTimeout : Bool
deriving DecidableEq, Repr

/-- A window entry: a distance increment in nm and the cycles it spans (03 R49). -/
structure Increment where
  distance : Int
  cycles : Nat
deriving DecidableEq, Repr

/-- A roller channel's measurement state (03 Section 3.1). -/
structure Channel where
  baseline : Option (BitVec 32)
  lastStamp : Option (BitVec 8)
  lastStatus : Option Status
  held : Nat
  distance : Int
  fraction : Nat
  window : List Increment
  speed : Int
  force : Int
  latch : Latch
  flags : RollerFlags
deriving DecidableEq, Repr

/-- The power stages (06 Section 6.1). -/
inductive Stage where
  | safe
  | enabling
  | energised
  | releasing
  | released
  | applying
  | disabling
deriving DecidableEq, Repr

/-- A direction received and not yet acted on (06 Section 6.1). -/
inductive HeldDir where
  | none
  | release
  | apply
deriving DecidableEq, Repr

/-- A roller's power-stage sequence (06 Section 6.1). -/
structure Sequence where
  stage : Stage
  readyCount : Nat
  commanded : Bool
  held : HeldDir
  timer : Option Nat
deriving DecidableEq, Repr

/-- What the Coupling Unit holds per roller (05 Section 5.1). -/
structure Coupling where
  reference : Option Int
  composed : Int
  prevBase : Int
  prevSet : Int
  error : Option Int
deriving DecidableEq, Repr

/-- All that is held per roller, with the stage the latest published set carried it in (07 R113). -/
structure Roller where
  chan : Channel
  seq : Sequence
  coup : Coupling
  published : Stage
deriving DecidableEq, Repr

/-- A load blend in progress (04 Section 4.1). -/
structure LoadBlend where
  old : LoadsEntry
  pos : Nat
  len : Nat
deriving DecidableEq, Repr

/-- The sticky flags of the group class (10 R169). -/
structure GroupFlags where
  simSat : Bool
  setSat : Bool
  trackLost : Bool
  settleTimeout : Bool
deriving DecidableEq, Repr

/-- The results of a group's step as they are handed on (04 R74). -/
structure HandedOn where
  state : GroupState
  cause : StopCause
  speed : Int
  force : Int
  load : Int
deriving DecidableEq, Repr

/-- All that is held per group (04 Section 4.1, 05 Section 5.1, 07 R113). -/
structure Group where
  state : GroupState
  cause : StopCause
  windDown : Bool
  settle : Option Nat
  speed : Int
  residue : Int
  loadBlend : Option LoadBlend
  blendPos : Nat
  dir : BlendDir
  flags : GroupFlags
  handed : HandedOn
deriving DecidableEq, Repr

/-- The lock states (09 R153). -/
inductive LockState where
  | unlocked
  | locked
  | lockedDown
deriving DecidableEq, Repr

/-- What is held per table beside its copies (08 R132). -/
structure TableCtl where
  live : Bool
  pinned : Bool
  lock : LockState
deriving DecidableEq, Repr

/-- The live-due marks, one per entry (08 R132). -/
structure LiveDue where
  cell : Bool
  slots : Quad Bool
  rollers : Quad Bool
  groups : Quad Bool
  loads : Octo Bool
deriving DecidableEq, Repr

/-- A record of the Pending Change List (08 R144). due = none is the run's first accepted cycle. -/
structure ChangeRecord where
  mask : Byte
  effective : Option Nat
  blend : Option Nat
  due : Option Nat
deriving DecidableEq, Repr

/-- The sticky flags of the table class (08 R152). -/
structure TableFlags where
  commitDropped : Bool
  liveDropped : Bool
  pendingDropped : Bool
deriving DecidableEq, Repr

/-- The Table Manager's state (08 R132, 09 R155). -/
structure TableManager where
  staging : Tables
  active : Tables
  ctl : Five TableCtl
  due : LiveDue
  changes : List ChangeRecord
  freezeFlag : Bool
  flags : TableFlags
deriving DecidableEq, Repr

/-- The result codes (10 Section 10.1); barred is PROTECTED. -/
inductive ResultCode where
  | done
  | accepted
  | busy
  | barred
  | invalid
  | pending
  | state
  | length
  | unknown
  | full
deriving DecidableEq, Repr

/-- A reply: its result code and its payload, whose length is the reply length (10 Section 10.1). -/
structure Reply where
  code : ResultCode
  payload : List Byte
deriving DecidableEq, Repr

/-- An entry of the reply queue (10 R164). -/
structure ReplyEntry where
  /-- The entry's number, the model's own (log 24). -/
  id : Nat
  /-- The cycle number of the frame its request came from. -/
  cycle : BitVec 16
  kind : Byte
  /-- The 64 payload bytes of the request. -/
  payload : List Byte
  /-- The reply the owner has given and whose service is not yet complete (log 9). -/
  answer : Option Reply
  /-- The result: none while the request is in service. -/
  result : Option Reply
  /-- The microseconds since the request was taken (12 R184). -/
  age : Nat
  /-- For a request whose entry has left the queue: whether its result is recorded as unanswered (log 25). -/
  record : Bool
deriving DecidableEq, Repr

/-- The unanswered record (10 R166). -/
structure Unanswered where
  kind : Byte
  cycle : BitVec 16
  code : ResultCode
deriving DecidableEq, Repr

/-- The Service Responder's state (10 R172). -/
structure Responder where
  /-- The reply queue, oldest first. -/
  queue : List ReplyEntry
  /-- Requests in service whose entry has left the queue (R166). -/
  orphans : List ReplyEntry
  nextId : Nat
  unanswered : Option Unanswered
  lastReply : Option Reply
deriving DecidableEq, Repr

/-- The per-roller items of a trace record (11 R175). -/
structure TraceRoller where
  speed : Int
  setpoint : Int
  error : Int
deriving DecidableEq, Repr

/-- A trace record (11 R175). -/
structure TraceRecord where
  cycle : Nat
  group : GroupView
  blendPos : Nat
  speed : Int
  force : Int
  load : Int
  members : Quad Bool
  rollers : Quad TraceRoller
deriving DecidableEq, Repr

/-- A pointer into the record store: an index 0..511 with a wrap bit (11 R173). -/
structure TracePtr where
  index : Nat
  wrap : Bool
deriving DecidableEq, Repr

/-- The Trace Buffer's state (11 R173). The records held stand oldest first (log 22). -/
structure TraceBuffer where
  group : Fin 4
  decimation : Nat
  enable : Bool
  counter : Nat
  records : List TraceRecord
  write : TracePtr
  read : TracePtr
  overflowCount : Nat
  overflow : Bool
  /-- The cycle last counted (11 R174), the model's own (log 5). -/
  lastCounted : Option Nat
deriving DecidableEq, Repr

/-- The store states (12 R180). SAVING carries the snapshot of R181. -/
inductive StoreState where
  | idle
  | saving (snapshot : Tables)
  | failed
deriving DecidableEq, Repr

/-- An image: its contents and its check word (12 R180). -/
structure StoreImage where
  contents : List Byte
  check : BitVec 32
deriving DecidableEq, Repr

/-- A RESTART that awaits its effect: the microseconds since its request was taken, and the number of its own reply-queue entry if it has one (12 R184). -/
structure RestartWait where
  waited : Nat
  entry : Option Nat
deriving DecidableEq, Repr

/-- The Parameter Store's state (12 R185). image = none is an image never written or whose writing was cut short or failed (log 23). -/
structure Store where
  state : StoreState
  image : Option StoreImage
  fail : Bool
  invalid : Bool
  restart : Option RestartWait
deriving DecidableEq, Repr

end Sys2Proof.Machine

namespace Sys2Proof.Machine

/-- The state of the part. -/
structure State where
  powered : Bool
  resetLine : Bool
  cert : Bool
  lpu : Lpu
  outPass : Option Pass
  retPass : Option Pass
  sentD : Option SentFrame
  sentM : Option SentFrame
  slot : SlotEngine
  rollers : Quad Roller
  groups : Quad Group
  tables : TableManager
  svc : Responder
  trace : TraceBuffer
  store : Store
  pending : List Instr
deriving DecidableEq, Repr

/-- No line flag set. -/
def LineFlags.none : LineFlags := ⟨false, false, false, false, false, false, false, false⟩

/-- No roller flag set. -/
def RollerFlags.none : RollerFlags := ⟨false, false, false, false, false⟩

/-- A clear fault latch. -/
def Latch.clear : Latch := ⟨false, false, false, false⟩

/-- No group flag set. -/
def GroupFlags.none : GroupFlags := ⟨false, false, false, false⟩

/-- No table flag set. -/
def TableFlags.none : TableFlags := ⟨false, false, false⟩

/-- A channel's measurement state after a reset event or START, with the flags it keeps (03 R56). -/
def Channel.initial (flags : RollerFlags) : Channel :=
  { baseline := .none, lastStamp := .none, lastStatus := .none, held := 0, distance := 0, fraction := 0, window := [],
    speed := 0, force := 0, latch := Latch.clear, flags := flags }

/-- The SAFE stage with nothing under way (06 R109, R111). -/
def Sequence.safe : Sequence := { stage := .safe, readyCount := 0, commanded := false, held := .none, timer := .none }

/-- What the Coupling Unit holds per roller after a reset event or START (05 R95). -/
def Coupling.initial : Coupling := { reference := .none, composed := 0, prevBase := 0, prevSet := 0, error := .none }

/-- A roller after a reset event or START, with the flags it keeps. -/
def Roller.initial (flags : RollerFlags) : Roller :=
  { chan := Channel.initial flags, seq := Sequence.safe, coup := Coupling.initial, published := .safe }

/-- Nothing handed on yet. -/
def HandedOn.initial : HandedOn := { state := .idle, cause := .none, speed := 0, force := 0, load := 0 }

/-- A group after a reset event or START, with the flags it keeps (04 R76, 05 R95, 07 R131). -/
def Group.initial (flags : GroupFlags) : Group :=
  { state := .idle, cause := .none, windDown := false, settle := .none, speed := 0, residue := 0, loadBlend := .none,
    blendPos := 0, dir := .none, flags := flags, handed := HandedOn.initial }

/-- The LPU after a reset event, with the flags and counts it keeps (01 R22). -/
def Lpu.initial (flags : LineFlags) (checkErrCount missedCount : Nat) : Lpu :=
  { opState := .starting, ext := .none, last := .none, resyncDue := false, silenceTimer := .none, arrivalTimer := .none,
    flags := flags, checkErrCount := checkErrCount, missedCount := missedCount }

/-- The Slot Engine after a reset event (02 R37). -/
def SlotEngine.initial : SlotEngine :=
  { positions := .none, buffers := Quad.all .none, current := Quad.all Command.clear, image := .none }

/-- No live-due mark set. -/
def LiveDue.none : LiveDue :=
  { cell := false, slots := Quad.all false, rollers := Quad.all false, groups := Quad.all false, loads := Octo.all false }

/-- The Trace Buffer after a reset event, with what it keeps of its overflow (11 R179). -/
def TraceBuffer.initial (overflowCount : Nat) (overflow : Bool) : TraceBuffer :=
  { group := 0, decimation := 1, enable := false, counter := 0, records := [], write := ⟨0, false⟩, read := ⟨0, false⟩,
    overflowCount := overflowCount, overflow := overflow, lastCounted := .none }

/-- An UNLOCKED table with LIVE off and no pin. -/
def TableCtl.initial : TableCtl := { live := false, pinned := false, lock := .unlocked }

/-- The Table Manager at power-up. The copies hold the factory defaults until the load completes (log 2). -/
def TableManager.initial : TableManager :=
  { staging := factoryTables, active := factoryTables, ctl := Five.all TableCtl.initial, due := LiveDue.none, changes := [],
    freezeFlag := false, flags := TableFlags.none }

/-- The Service Responder at power-up (10 R172). -/
def Responder.initial : Responder := { queue := [], orphans := [], nextId := 0, unanswered := .none, lastReply := .none }

/-- The machine right after reset: power has just been applied to a part whose image was never written, the CERT and RESET lines
are released, and the part is in STARTING (00 Reset events, 01 R22; log 1). -/
def State.reset : State :=
  { powered := true
    resetLine := false
    cert := false
    lpu := Lpu.initial LineFlags.none 0 0
    outPass := .none
    retPass := .none
    sentD := .none
    sentM := .none
    slot := SlotEngine.initial
    rollers := Quad.all (Roller.initial RollerFlags.none)
    groups := Quad.all (Group.initial GroupFlags.none)
    tables := TableManager.initial
    svc := Responder.initial
    trace := TraceBuffer.initial 0 false
    store := { state := .idle, image := .none, fail := false, invalid := false, restart := .none }
    pending := [] }

end Sys2Proof.Machine
end

