-- ==== Sys2Proof/Machine/Checks.lean ====
section
/-! DEFINITION. The entry check, the two cross-rules and the three checks of Chapter 8 (08 R133 to R137). -/

namespace Sys2Proof.Machine

/-- x lies in lo..hi, inclusive at both ends (00, Units). -/
def inRange (lo hi x : Nat) : Bool := decide (lo ≤ x) && decide (x ≤ hi)

/-- The line cycle periods (00, Units; 08 R133). -/
def periodOk (t : Nat) : Bool := [250, 500, 1000, 2000, 4000].contains t

/-- The entry check of CELL (08 R133): the range of tolerance_us depends on cycle_us in the same entry. -/
def cellCheck (e : CellEntry) : Bool :=
  inRange 1 254 e.station && periodOk e.cycleUs && inRange 10 (e.cycleUs / 4) e.toleranceUs && inRange 0 7 e.missLimit
    && inRange 1 500 e.standstill && inRange 16 1024 e.slotAreaLen
    && (match e.report with
        | none => true
        | some r => inRange 0 1000 r)

/-- The entry check of SLOTS (08 R133). -/
def slotsCheck : SlotsEntry → Bool
  | .absent => true
  | .present o i => inRange 0 1023 o && inRange 0 1023 i

/-- The entry check of ROLLERS (08 R134): the range of d_stop depends on a_max in the same entry. -/
def rollersCheck (e : RollersEntry) : Bool :=
  inRange 1 (2 ^ 32 - 1) e.scale && (decide (e.direction = 1) || decide (e.direction = -1)) && inRange 1 16 e.window
    && inRange 1 (2 ^ 30) e.jumpLimit && inRange 1 300000 e.forceLimit && inRange 0 7 e.sampleMissLimit && inRange 1 70000 e.vmax
    && inRange 100 30000 e.aMax && inRange e.aMax 50000 e.dStop && inRange 10 65535 e.stageTimeout
    && (match e.group with
        | none => true
        | some g => inRange 0 3 g)
    && (decide (-50000 ≤ e.trim) && decide (e.trim ≤ 50000))

/-- The entry check of GROUPS (08 R135). -/
def groupsCheck (e : GroupsEntry) : Bool :=
  inRange 400 9999 e.mass && inRange 0 7 e.loadSet && inRange 0 20000 e.kp && inRange 0 5000 e.corrMax
    && inRange 1 2000 e.slipLimit && inRange 1 4096 e.trackBlend

/-- The entry check of LOADS (08 R135). -/
def loadsCheck (e : LoadsEntry) : Bool :=
  inRange 0 50000 e.a && inRange 0 100000 e.b && inRange 0 50000 e.c && inRange 1 2000 e.vCreep

/-- The entry check (08 R133). -/
def entryCheck : Entry → Bool
  | .cell e => cellCheck e
  | .slots e => slotsCheck e
  | .rollers e => rollersCheck e
  | .groups e => groupsCheck e
  | .loads e => loadsCheck e

/-- Every entry of one table passes the entry check. -/
def tableCheck (t : Tables) : Table → Bool
  | .cell => cellCheck t.cell
  | .slots => t.slots.toList.all slotsCheck
  | .rollers => t.rollers.toList.all rollersCheck
  | .groups => t.groups.toList.all groupsCheck
  | .loads => t.loads.toList.all loadsCheck

/-- The roller is PRESENT in this copy of SLOTS. -/
def isPresent (slots : Quad SlotsEntry) (i : Fin 4) : Bool :=
  match slots.get i with
  | .absent => false
  | .present _ _ => true

/-- The membership cross-rule (08 R136). -/
def membershipRule (t : Tables) : Bool :=
  four.all fun i => (t.rollers.get i).group.isSome == isPresent t.slots i

/-- Lengths of the fields in the slot area (13 Section 13.1; 02 R23). -/
def outFieldLen : Nat := 6

/-- Length of an in-field (13 Section 13.1). -/
def inFieldLen : Nat := 10

/-- Length of the report field (13 Section 13.3). -/
def reportLen : Nat := 24

/-- The fields of a roller, each an offset and a length. -/
def rollerFields : SlotsEntry → List (Nat × Nat)
  | .absent => []
  | .present o i => [(o, outFieldLen), (i, inFieldLen)]

/-- Every placed field of a copy: the out-fields and in-fields of PRESENT rollers and the report field when its offset is present. -/
def placedFields (t : Tables) : List (Nat × Nat) :=
  t.slots.toList.flatMap rollerFields ++ (match t.cell.report with
    | none => []
    | some r => [(r, reportLen)])

/-- Two fields share no byte. -/
def fieldsApart (x y : Nat × Nat) : Bool := decide (x.1 + x.2 ≤ y.1) || decide (y.1 + y.2 ≤ x.1)

/-- Any two of the fields, taken in order, share no byte. -/
def allApart : List (Nat × Nat) → Bool
  | [] => true
  | f :: fs => fs.all (fieldsApart f) && allApart fs

/-- The placement cross-rule (08 R136). -/
def placementRule (t : Tables) : Bool :=
  (placedFields t).all (fun f => decide (f.1 + f.2 ≤ t.cell.slotAreaLen)) && allApart (placedFields t)

/-- The start check (08 R137): the active copies of all five tables. -/
def startCheck (active : Tables) : Bool :=
  tablesInOrder.all (tableCheck active) && membershipRule active && placementRule active

/-- The cross-rules that involve one of the named tables hold in an image (08 R136, R137). -/
def crossRules (named : Table → Bool) (image : Tables) : Bool :=
  (!(named .rollers || named .slots) || membershipRule image) && (!(named .slots || named .cell) || placementRule image)

/-- The commit check (08 R137): the staging copies of the named tables with the active copies of the others. -/
def commitCheck (named : Table → Bool) (staging active : Tables) : Bool :=
  tablesInOrder.all (fun t => !named t || tableCheck staging t) && crossRules named (Tables.merge named staging active)

/-- The live check (08 R137): the active copies with the written entry in place of its active value. -/
def liveCheck (active : Tables) (p : Place) (e : Entry) : Bool :=
  entryCheck e && crossRules (fun t => t == p.table) (active.putEntry p e)

end Sys2Proof.Machine
end

