-- ==== Sys2Proof/Machine/Formats.lean ====
section
/-! DEFINITION. The byte layouts of Chapter 13: reading a frame's fields, and writing codes, replies, the report field and trace
records. -/

namespace Sys2Proof.Machine

/-- Offset of the slot area in a cycle frame (13 Section 13.1). -/
def slotAreaAt : Nat := 5

/-- Frame kind CYCLE (13 Section 13.1). -/
def kindCycle : Nat := 0x21

/-- The frame kind of a frame's bytes. -/
def frameKind (bs : List Byte) : Nat := fromLE (sliceAt bs 0 1)

/-- The cycle number of a frame's bytes. -/
def frameCycle (bs : List Byte) : BitVec 16 := BitVec.ofNat 16 (fromLE (sliceAt bs 1 2))

/-- The slot area length of a frame's bytes. -/
def frameSlotLen (bs : List Byte) : Nat := fromLE (sliceAt bs 3 2)

/-- The frame is handled as a cycle frame (01 R2): kind CYCLE and a slot area length in 16..1024. -/
def isCycleFrame (bs : List Byte) : Bool :=
  decide (5 ≤ bs.length) && decide (frameKind bs = kindCycle) && decide (16 ≤ frameSlotLen bs) && decide (frameSlotLen bs ≤ 1024)

/-- The offset of the service area in a cycle frame (13 Section 13.1). -/
def serviceAt (bs : List Byte) : Nat := slotAreaAt + frameSlotLen bs

/-- The offset of the check word in a cycle frame (13 Section 13.1): the check covers the bytes before it. -/
def checkAt (bs : List Byte) : Nat := 75 + frameSlotLen bs

/-- The length a cycle frame's header declares (01 R2, 13 Section 13.1). -/
def declaredLen (bs : List Byte) : Nat := 79 + frameSlotLen bs

/-- The frame's own check word. -/
def frameCheck (bs : List Byte) : List Byte := sliceAt bs (checkAt bs) 4

/-- The check over the header, slot area and service area of a frame's bytes (01 R3). -/
def checkOver (bs : List Byte) (covered : Nat) : BitVec 32 := crc32 (bs.take covered)

/-- A frame whose length on the link is the declared one and whose check word equals the check over its bytes as received
(01 R3, R4). -/
def checkGood (bs : List Byte) : Bool :=
  decide (bs.length = declaredLen bs) && decide (frameCheck bs = checkBytes (checkOver bs (checkAt bs)))

/-- The drive status in a status byte (13 Section 13.1, in-field). -/
def statusOf (b : Nat) : Status :=
  { ready := b.testBit 0, enabled := b.testBit 1, brakeOpen := b.testBit 2, fault := b.testBit 3 }

/-- A sample read from an in-field's bytes (13 Section 13.1). -/
def sampleOf (bs : List Byte) : Sample :=
  { status := statusOf (fromLE (sliceAt bs 0 1)), stamp := BitVec.ofNat 8 (fromLE (sliceAt bs 1 1))
    count := BitVec.ofNat 32 (fromLE (sliceAt bs 2 4)), force := fromLEInt (sliceAt bs 6 4) }

/-- The bytes of an out-field (13 Section 13.1). -/
def outFieldBytes (c : Command) : List Byte := leBytes 2 (bitsOf [c.enable, c.release]) ++ leBytesInt 4 c.setpoint

/-- The operating state byte (13 Section 13.2). STARTING has no code: nothing reports it. -/
def opStateCode : OpState → Nat
  | .starting => 0
  | .bypass => 1
  | .active => 2

/-- The codes of the group states (13 Section 13.2). -/
def groupStateCode : GroupState → Nat
  | .idle => 0
  | .engaging => 1
  | .hold => 2
  | .follow => 3
  | .track => 4
  | .stopping => 5
  | .disengaging => 6
  | .faulted => 7

/-- The qualifier of a STOPPING group (13 Section 13.2). -/
def causeCode : StopCause → Nat
  | .none => 0
  | .request => 1
  | .trackLost => 2
  | .rollerFault => 3

/-- The qualifier of a TRACK group (13 Section 13.2). -/
def dirCode : BlendDir → Nat
  | .none => 0
  | .inward => 1
  | .steady => 2
  | .outward => 3

/-- The group state byte (13 Section 13.2). -/
def groupByte (v : GroupView) : Nat :=
  groupStateCode v.state
    + 8 * (match v.state with
           | .stopping => causeCode v.cause
           | .track => dirCode v.dir
           | _ => 0)
    + 32 * v.windDown.toNat

/-- The view of a group that READ_STATUS and a GROUP reply carry (07 R130). -/
def viewOf (g : Group) : GroupView := { state := g.state, cause := g.cause, dir := g.dir, windDown := g.windDown }

/-- The same view with the wind-down bit written 0, as the report field and the trace record carry it (13 Section 13.3). -/
def viewNoWind (g : Group) : GroupView := { viewOf g with windDown := false }

/-- The codes of the stages (13 Section 13.2). -/
def stageCode : Stage → Nat
  | .safe => 0
  | .enabling => 1
  | .energised => 2
  | .releasing => 3
  | .released => 4
  | .applying => 5
  | .disabling => 6

/-- The roller byte (13 Section 13.2): stage, enable commanded while ENABLING (06 R112), latch causes. -/
def rollerByte (r : Roller) : Nat :=
  stageCode r.seq.stage + 8 * (decide (r.seq.stage = .enabling) && r.seq.commanded).toNat
    + 16 * bitsOf [r.chan.latch.countJump, r.chan.latch.sampleStale, r.chan.latch.driveFault, r.chan.latch.seqTimeout]

/-- The codes of the lock states (13 Section 13.2). -/
def lockCode : LockState → Nat
  | .unlocked => 0
  | .locked => 1
  | .lockedDown => 2

/-- The table status byte (13 Section 13.2). -/
def tableStatusByte (c : TableCtl) : Nat := lockCode c.lock + 4 * c.live.toNat + 8 * c.pinned.toNat

/-- The table status bytes of codes 0 to 4. -/
def tableStatusBytes (c : Five TableCtl) : List Byte := c.toList.flatMap fun x => leBytes 1 (tableStatusByte x)

/-- The store state byte (13 Section 13.2). -/
def storeCode : StoreState → Nat
  | .idle => 0
  | .saving _ => 1
  | .failed => 2

/-- The result codes (13 Section 13.1). -/
def resultCode : ResultCode → Nat
  | .done => 1
  | .accepted => 2
  | .busy => 3
  | .barred => 4
  | .invalid => 5
  | .pending => 6
  | .state => 7
  | .length => 8
  | .unknown => 9
  | .full => 10

/-- The summary flags byte of the report field (13 Section 13.3). -/
def summaryByte (x : Summary) : Nat := bitsOf [x.line, x.roller, x.latch, x.group, x.table, x.trace, x.store]

/-- The 24 bytes of the report field (13 Section 13.3). -/
def reportBytes (im : ReportImage) : List Byte :=
  leBytes 1 (opStateCode .active) ++ leBytes 1 (4 * im.freeze.toNat) ++ leBytes 1 im.pendingCount ++ leBytes 1 (summaryByte im.summary)
    ++ leBytes 4 im.cycle ++ im.groups.toList.flatMap (fun v => leBytes 1 (groupByte v))
    ++ im.speeds.toList.flatMap (fun v => leBytesInt 3 v)

/-- v limited to ±l. -/
def limitTo (l : Nat) (v : Int) : Int := clampAbs v l

/-- The 10 bytes of one roller in a trace record (13 Section 13.3). -/
def traceRollerBytes (r : TraceRoller) : List Byte :=
  leBytesInt 4 (limitTo 2147483647 r.speed) ++ leBytesInt 4 r.setpoint ++ leBytesInt 2 r.error

/-- The 64 bytes of a trace record (13 Section 13.3). -/
def traceBytes (r : TraceRecord) : List Byte :=
  leBytes 8 r.cycle ++ leBytes 1 (groupByte { r.group with windDown := false }) ++ leBytes 2 r.blendPos ++ leBytesInt 4 r.speed
    ++ leBytesInt 4 r.force ++ leBytesInt 4 r.load ++ leBytes 1 (bitsOf r.members.toList)
    ++ r.rollers.toList.flatMap traceRollerBytes

/-- The bytes a reply puts over bytes 3 to 69 of the service area (10 R165, 13 Service area): reply state REPLIED, the result code,
the reply length, the payload and zero bytes to its end. -/
def replyBytes (r : Reply) : List Byte :=
  leBytes 1 1 ++ leBytes 1 (resultCode r.code) ++ leBytes 1 r.payload.length
    ++ (r.payload ++ List.replicate (64 - r.payload.length) 0).take 64

end Sys2Proof.Machine
end

