-- ==== Sys2Proof/Machine/Flags.lean ====
section
/-! DEFINITION. The sticky flags of the six classes (10 R169): their block of 8 bytes (13 Section 13.2), clearing them (10 R170), and the
summary indications formed over them (02 R35). -/

namespace Sys2Proof.Machine

/-- The flags of the line class in bit order. -/
def LineFlags.toList (f : LineFlags) : List Bool :=
  [f.checkErr, f.shortFrame, f.duplicate, f.missed, f.resync, f.ringLost, f.offTime, f.lateReply]

/-- The flags of a roller in bit order. -/
def RollerFlags.toList (f : RollerFlags) : List Bool := [f.countJump, f.sampleStale, f.driveFault, f.forceSat, f.seqTimeout]

/-- The flags of a group in bit order. -/
def GroupFlags.toList (f : GroupFlags) : List Bool := [f.simSat, f.setSat, f.trackLost, f.settleTimeout]

/-- The flags of the table class in bit order. -/
def TableFlags.toList (f : TableFlags) : List Bool := [f.commitDropped, f.liveDropped, f.pendingDropped]

/-- Every sticky flag in the bit order of the sticky flag block (13 Section 13.2). -/
def stickyList (s : State) : List Bool :=
  s.lpu.flags.toList
    ++ s.rollers.toList.flatMap (fun r => r.chan.flags.toList ++ [false, false, false])
    ++ s.groups.toList.flatMap (fun g => g.flags.toList)
    ++ s.tables.flags.toList ++ [s.trace.overflow] ++ [s.store.fail, s.store.invalid]

/-- The sticky flag block, 8 bytes (13 Section 13.2). -/
def stickyBytes (s : State) : List Byte := leBytes 8 (bitsOf (stickyList s))

/-- A flag after a clear: it stays only where the mask does not name it (10 R170). -/
def kept (mask : BitVec 64) (n : Nat) (flag : Bool) : Bool := flag && !mask.getLsbD n

/-- The line flags after a clear. -/
def LineFlags.clear (mask : BitVec 64) (f : LineFlags) : LineFlags :=
  { checkErr := kept mask 0 f.checkErr, shortFrame := kept mask 1 f.shortFrame, duplicate := kept mask 2 f.duplicate
    missed := kept mask 3 f.missed, resync := kept mask 4 f.resync, ringLost := kept mask 5 f.ringLost
    offTime := kept mask 6 f.offTime, lateReply := kept mask 7 f.lateReply }

/-- The flags of roller i after a clear: its byte is byte 1 + i of the block. -/
def RollerFlags.clear (mask : BitVec 64) (i : Fin 4) (f : RollerFlags) : RollerFlags :=
  let b := 8 + 8 * i.val
  { countJump := kept mask b f.countJump, sampleStale := kept mask (b + 1) f.sampleStale
    driveFault := kept mask (b + 2) f.driveFault, forceSat := kept mask (b + 3) f.forceSat
    seqTimeout := kept mask (b + 4) f.seqTimeout }

/-- The flags of group g after a clear: they stand at bits 4g of the 16-bit value in bytes 5 and 6. -/
def GroupFlags.clear (mask : BitVec 64) (g : Fin 4) (f : GroupFlags) : GroupFlags :=
  let b := 40 + 4 * g.val
  { simSat := kept mask b f.simSat, setSat := kept mask (b + 1) f.setSat, trackLost := kept mask (b + 2) f.trackLost
    settleTimeout := kept mask (b + 3) f.settleTimeout }

/-- The table flags after a clear. -/
def TableFlags.clear (mask : BitVec 64) (f : TableFlags) : TableFlags :=
  { commitDropped := kept mask 56 f.commitDropped, liveDropped := kept mask 57 f.liveDropped
    pendingDropped := kept mask 58 f.pendingDropped }

/-- CLEAR_FLAGS on the whole part (10 R170): every named flag is cleared, CHECK_ERR with the check-error count, MISSED with the
missed-cycle count, LATE_REPLY with the unanswered record, TRACE_OVERFLOW with the overflow count. -/
def clearSticky (mask : BitVec 64) (s : State) : State :=
  { s with
    lpu := { s.lpu with
      flags := s.lpu.flags.clear mask
      checkErrCount := if mask.getLsbD 0 then 0 else s.lpu.checkErrCount
      missedCount := if mask.getLsbD 3 then 0 else s.lpu.missedCount }
    rollers := s.rollers.mapIdx fun i r => { r with chan := { r.chan with flags := r.chan.flags.clear mask i } }
    groups := s.groups.mapIdx fun g x => { x with flags := x.flags.clear mask g }
    tables := { s.tables with flags := s.tables.flags.clear mask }
    svc := { s.svc with unanswered := if mask.getLsbD 7 then none else s.svc.unanswered }
    trace := { s.trace with
      overflow := kept mask 59 s.trace.overflow
      overflowCount := if mask.getLsbD 59 then 0 else s.trace.overflowCount }
    store := { s.store with fail := kept mask 60 s.store.fail, invalid := kept mask 61 s.store.invalid } }

/-- The latch is set: it holds one or more causes (03 Section 3.1). -/
def Latch.isSet (l : Latch) : Bool := l.countJump || l.sampleStale || l.driveFault || l.seqTimeout

/-- The summary indications as the state stands (02 R35). -/
def summaryOf (s : State) : Summary :=
  { line := s.lpu.flags.toList.any id
    roller := s.rollers.toList.any fun r => r.chan.flags.toList.any id
    latch := s.rollers.toList.any fun r => r.chan.latch.isSet
    group := s.groups.toList.any fun g => g.flags.toList.any id
    table := s.tables.flags.toList.any id
    trace := s.trace.overflow
    store := s.store.fail || s.store.invalid }

end Sys2Proof.Machine
end

