-- ==== Sys2Proof/Machine/Operands.lean ====
section
/-! DEFINITION. The eighteen requests with their raw operands, read from the payload of a service area (13 Section 13.4), and the
judgement of kind and length (10 R163). -/

namespace Sys2Proof.Machine

/-- A request as its owner receives it: raw codes, so that the owner can refuse the ones outside its range. -/
inductive Request where
  | identify
  | readStatus
  | clearFlags (mask : BitVec 64)
  | start
  | halt
  | group (group action : Byte)
  | readEntry (table index copy : Byte)
  | writeEntry (table index : Byte) (entry : List Byte)
  | setLive (table onOff : Byte)
  | commit (mask presence : Byte) (effective : BitVec 64) (blend : BitVec 16)
  | cancel (mask : Byte)
  | lock (mask mode : Byte)
  | freeze
  | thaw
  | traceSet (group decimation enable : Byte)
  | readTrace
  | storeSave
  | restart
deriving DecidableEq, Repr

/-- One byte of a payload. -/
def payloadByte (p : List Byte) (i : Nat) : Byte := p.getD i 0

/-- The table named by a byte. -/
def tableOf (b : Byte) : Option Table := tableOfCode b.toNat

/-- The request of a kind and a payload; none for a kind that is not one of the eighteen (10 Section 10.3, 13 Section 13.4). -/
def requestOf (kind : Byte) (p : List Byte) : Option Request :=
  match kind.toNat with
  | 1 => some .identify
  | 2 => some .readStatus
  | 3 => some (.clearFlags (BitVec.ofNat 64 (fromLE (sliceAt p 0 8))))
  | 4 => some .start
  | 5 => some .halt
  | 6 => some (.group (payloadByte p 0) (payloadByte p 1))
  | 7 => some (.readEntry (payloadByte p 0) (payloadByte p 1) (payloadByte p 2))
  | 8 => some (.writeEntry (payloadByte p 0) (payloadByte p 1)
      (match tableOf (payloadByte p 0) with
       | some t => sliceAt p 2 (entrySize t)
       | none => []))
  | 9 => some (.setLive (payloadByte p 0) (payloadByte p 1))
  | 10 => some (.commit (payloadByte p 0) (payloadByte p 1) (BitVec.ofNat 64 (fromLE (sliceAt p 2 8)))
      (BitVec.ofNat 16 (fromLE (sliceAt p 10 2))))
  | 11 => some (.cancel (payloadByte p 0))
  | 12 => some (.lock (payloadByte p 0) (payloadByte p 1))
  | 13 => some .freeze
  | 14 => some .thaw
  | 15 => some (.traceSet (payloadByte p 0) (payloadByte p 1) (payloadByte p 2))
  | 16 => some .readTrace
  | 17 => some .storeSave
  | 18 => some .restart
  | _ => none

/-- The fixed request length of a kind (13 Section 13.4): for WRITE_ENTRY 2 plus the entry size of the named table, none when no
table is named. The table code is read whatever the request length is, 0 included (10 R163; log 39). -/
def requestLen (kind : Byte) (p : List Byte) : Option Nat :=
  match kind.toNat with
  | 3 => some 8
  | 6 => some 2
  | 7 => some 3
  | 8 => (tableOf (payloadByte p 0)).map fun t => 2 + entrySize t
  | 9 => some 2
  | 10 => some 12
  | 11 => some 1
  | 12 => some 2
  | 15 => some 3
  | _ => some 0

/-- The judgement of a taken request (10 R163): the refusal that applies first, or the request for its owner. -/
def judge (kind : Byte) (len : Nat) (p : List Byte) : ResultCode ⊕ Request :=
  match requestOf kind p with
  | none => .inl .unknown
  | some r =>
    match requestLen kind p with
    | none => .inl .invalid
    | some n => if len = n then .inr r else .inl .length

/-- The tables a mask names: bit n names the table with code n (13 Section 13.2). -/
def maskNames (mask : Byte) (t : Table) : Bool := mask.getLsbD (codeOfTable t)

/-- The mask names nothing other than the five tables (log 13). -/
def maskInRange (mask : Byte) : Bool := decide (mask.toNat < 32)

/-- The effective cycle a COMMIT gives: bit 0 of the presence byte says whether one is given (13 Section 13.4). -/
def givenEffective (presence : Byte) (e : BitVec 64) : Option Nat := if presence.getLsbD 0 then some e.toNat else none

/-- The blend cycles a COMMIT gives: bit 1 of the presence byte says whether they are given (13 Section 13.4). -/
def givenBlend (presence : Byte) (b : BitVec 16) : Option Nat := if presence.getLsbD 1 then some b.toNat else none

end Sys2Proof.Machine
end

