-- ==== Sys2Proof/Machine/Ops.lean ====
section
/-! DEFINITION. The named operations over the state that the meanings share: replacing one block of the state, membership, freeze in
effect, and the replies. -/

namespace Sys2Proof.Machine

/-- The state with one roller replaced by a function of itself. -/
def State.onRoller (s : State) (i : Fin 4) (f : Roller → Roller) : State :=
  { s with rollers := s.rollers.set i (f (s.rollers.get i)) }

/-- The state with one group replaced by a function of itself. -/
def State.onGroup (s : State) (g : Fin 4) (f : Group → Group) : State :=
  { s with groups := s.groups.set g (f (s.groups.get g)) }

/-- The state with its LPU replaced by a function of itself. -/
def State.onLpu (s : State) (f : Lpu → Lpu) : State := { s with lpu := f s.lpu }

/-- The state with its Slot Engine replaced by a function of itself. -/
def State.onSlot (s : State) (f : SlotEngine → SlotEngine) : State := { s with slot := f s.slot }

/-- The state with its Table Manager replaced by a function of itself. -/
def State.onTables (s : State) (f : TableManager → TableManager) : State := { s with tables := f s.tables }

/-- The state with its Service Responder replaced by a function of itself. -/
def State.onSvc (s : State) (f : Responder → Responder) : State := { s with svc := f s.svc }

/-- The state with its Trace Buffer replaced by a function of itself. -/
def State.onTrace (s : State) (f : TraceBuffer → TraceBuffer) : State := { s with trace := f s.trace }

/-- The state with its Parameter Store replaced by a function of itself. -/
def State.onStore (s : State) (f : Store → Store) : State := { s with store := f s.store }

/-- Roller i is a member of group g: its ROLLERS entry names the group (04 R57). -/
def isMember (t : Tables) (g i : Fin 4) : Bool := (t.rollers.get i).group == some g.val

/-- The members of a group, ascending (04 R57). -/
def members (t : Tables) (g : Fin 4) : List (Fin 4) := four.filter (isMember t g)

/-- The group has a member. -/
def hasMembers (t : Tables) (g : Fin 4) : Bool := four.any (isMember t g)

/-- Every member of the group satisfies a test. -/
def allMembers (s : State) (g : Fin 4) (p : Roller → Bool) : Bool :=
  four.all fun i => !isMember s.tables.active g i || p (s.rollers.get i)

/-- Some member of the group satisfies a test. -/
def anyMember (s : State) (g : Fin 4) (p : Roller → Bool) : Bool :=
  four.any fun i => isMember s.tables.active g i && p (s.rollers.get i)

/-- The state with every member of a group replaced by a function of itself. -/
def State.onMembers (s : State) (g : Fin 4) (f : Roller → Roller) : State :=
  { s with rollers := s.rollers.mapIdx fun i r => if isMember s.tables.active g i then f r else r }

/-- The group a roller's ROLLERS entry names. -/
def groupOfRoller (t : Tables) (i : Fin 4) : Option (Fin 4) :=
  match (t.rollers.get i).group with
  | some g => if h : g < 4 then some ⟨g, h⟩ else none
  | none => none

/-- The smallest of f over some rollers; 0 over none. -/
def minOver (f : Fin 4 → Nat) : List (Fin 4) → Nat
  | [] => 0
  | i :: is => is.foldl (fun m j => min m (f j)) (f i)

/-- The largest of f over some rollers; 0 over none. -/
def maxOver (f : Fin 4 → Nat) (is : List (Fin 4)) : Nat := is.foldl (fun m j => max m (f j)) 0

/-- Certification freeze is in effect (09 R155). -/
def inFreeze (s : State) : Bool :=
  match s.lpu.opState with
  | .starting => false
  | _ => s.cert && s.tables.freezeFlag

/-- Service requests are taken: the part has power, RESET is not asserted and the state is BYPASS or ACTIVE (01 R7, R9; 10 R162). -/
def takesRequests (s : State) : Bool :=
  s.powered && !s.resetLine && (match s.lpu.opState with
    | .starting => false
    | _ => true)

/-- The group is IDLE or FAULTED. -/
def standing (s : State) (g : Fin 4) : Bool :=
  match (s.groups.get g).state with
  | .idle => true
  | .faulted => true
  | _ => false

/-- A reply without payload. -/
def plainReply (c : ResultCode) : Reply := { code := c, payload := [] }

/-- The line cycle period T in microseconds (00, Terms). -/
def periodOf (s : State) : Nat := s.tables.active.cell.cycleUs

/-- The standstill band (06 Section 6.1). -/
def bandOf (s : State) : Nat := s.tables.active.cell.standstill

end Sys2Proof.Machine
end

