-- ==== Sys2Proof/Machine/Measurement.lean ====
section
/-! DEFINITION. Roller measurement (Chapter 3): stale, fresh and resync samples, distance, window and speed, force, and the faults a
measurement raises. -/

namespace Sys2Proof.Machine

/-- The kinds of hard roller fault (03 R54). -/
inductive Cause where
  | countJump
  | sampleStale
  | driveFault
  | seqTimeout
deriving DecidableEq, Repr

/-- A hard fault sets its flag and adds its kind to the latch's causes (03 R54, R55). -/
def raiseFault (c : Cause) (ch : Channel) : Channel :=
  match c with
  | .countJump => { ch with latch := { ch.latch with countJump := true }, flags := { ch.flags with countJump := true } }
  | .sampleStale => { ch with latch := { ch.latch with sampleStale := true }, flags := { ch.flags with sampleStale := true } }
  | .driveFault => { ch with latch := { ch.latch with driveFault := true }, flags := { ch.flags with driveFault := true } }
  | .seqTimeout => { ch with latch := { ch.latch with seqTimeout := true }, flags := { ch.flags with seqTimeout := true } }

/-- The newest w entries of a window (03 R38, R49). -/
def newest (w : Nat) (l : List Increment) : List Increment := l.drop (l.length - w)

/-- The speed a window gives over a line cycle period of t microseconds (03 R50). -/
def speedOf (l : List Increment) (t : Nat) : Int :=
  roundHalfAway ((l.map (·.distance)).sum) ((l.map (·.cycles)).sum * t)

/-- A stale sample (03 R41, R42): c advances by k, stopping at 65,535; passing the limit raises SAMPLE_STALE. The Bool says whether a
hard fault was raised. -/
def staleSample (limit k : Nat) (ch : Channel) : Channel × Bool :=
  let c := satAt 65535 (ch.held + k)
  if ch.held ≤ limit ∧ limit < c then (raiseFault .sampleStale { ch with held := c }, true) else ({ ch with held := c }, false)

/-- The count increment of a fresh sample in the roller's positive direction (03 R45). -/
def countIncrement (direction : Int) (count baseline : BitVec 32) : Int := (count - baseline).toInt * direction

/-- An increment that passes the jump check becomes distance, a window entry and a new speed (03 R47, R49, R50). -/
def accumulate (cfg : RollersEntry) (t n : Nat) (count : BitVec 32) (dc : Int) (ch : Channel) : Channel :=
  let total := dc * cfg.scale + ch.fraction
  let dd := floorDiv total 65536
  let window := newest cfg.window (ch.window ++ [{ distance := dd, cycles := n }])
  { ch with
    baseline := some count
    distance := wrap64 (ch.distance + dd)
    fraction := (floorRem total 65536).toNat
    window := window
    speed := speedOf window t }

/-- The position count of a fresh sample over a span of n cycles (03 R44 to R47). -/
def countStep (cfg : RollersEntry) (t n : Nat) (count : BitVec 32) (ch : Channel) : Channel × Bool :=
  match ch.baseline with
  | none => ({ ch with baseline := some count }, false)
  | some b =>
    let dc := countIncrement cfg.direction count b
    if cfg.jumpLimit * n < dc.natAbs then (raiseFault .countJump { ch with baseline := some count }, true)
    else (accumulate cfg t n count dc ch, false)

/-- The force of a fresh or resync sample, clamped to the roller's limit (03 R51). -/
def takeForce (limit : Nat) (force : Int) (ch : Channel) : Channel :=
  if force.natAbs ≤ limit then { ch with force := force }
  else { ch with force := if force < 0 then -limit else limit, flags := { ch.flags with forceSat := true } }

/-- The drive fault check of a fresh or resync sample (03 R52). -/
def driveFaultStep (st : Status) (ch : Channel) : Channel × Bool :=
  if st.fault then (raiseFault .driveFault ch, true) else (ch, false)

/-- A fresh sample (03 R43): stamp and status recorded, span formed, count, force and status handled in this order. -/
def freshSample (cfg : RollersEntry) (t k : Nat) (sm : Sample) (ch : Channel) : Channel × Bool :=
  let n := ch.held + k
  let c0 := { ch with lastStamp := some sm.stamp, lastStatus := some sm.status, held := 0 }
  let c1 := countStep cfg t n sm.count c0
  let c2 := takeForce cfg.forceLimit sm.force c1.1
  let c3 := driveFaultStep sm.status c2
  (c3.1, c1.2 || c3.2)

/-- A resync sample (03 R53). -/
def resyncSample (cfg : RollersEntry) (sm : Sample) (ch : Channel) : Channel × Bool :=
  let c0 := { ch with lastStamp := some sm.stamp, lastStatus := some sm.status, held := 0, baseline := some sm.count, window := [] }
  driveFaultStep sm.status (takeForce cfg.forceLimit sm.force c0)

/-- What one measurement gives: the channel, whether a hard fault was raised, and whether the sample was fresh or a resync sample. -/
structure Measured where
  chan : Channel
  fault : Bool
  usable : Bool
deriving DecidableEq, Repr

/-- One measurement (03 R38 to R40): the window is trimmed to the active W first, then the sample is classified by the resync mark and
its stamp. -/
def measure (cfg : RollersEntry) (t k : Nat) (resync : Bool) (sm : Sample) (ch : Channel) : Measured :=
  let ch := { ch with window := newest cfg.window ch.window }
  if resync then
    let r := resyncSample cfg sm ch
    { chan := r.1, fault := r.2, usable := true }
  else if ch.lastStamp = some sm.stamp then
    let r := staleSample cfg.sampleMissLimit k ch
    { chan := r.1, fault := r.2, usable := false }
  else
    let r := freshSample cfg t k sm ch
    { chan := r.1, fault := r.2, usable := true }

end Sys2Proof.Machine
end

