-- ==== Sys2Proof/Machine/Sequencing.lean ====
section
/-! DEFINITION. Roller power stage sequencing (Chapter 6): control words, directions, acknowledgement checks, the stage work of an
accepted cycle and the stage timer. -/

namespace Sys2Proof.Machine

/-- The control word a stage assigns: ENABLE and RELEASE (06 R96). -/
def controlOf (q : Sequence) : Bool × Bool :=
  match q.stage with
  | .safe => (false, false)
  | .enabling => (q.commanded, false)
  | .energised => (true, false)
  | .releasing => (true, true)
  | .released => (true, true)
  | .applying => (true, false)
  | .disabling => (false, false)

/-- The entry into a stage with its timer started at 0 (06 R107). -/
def enterTimed (st : Stage) : Sequence := { stage := st, readyCount := 0, commanded := false, held := .none, timer := some 0 }

/-- The entry into RELEASED, which runs no timer (06 R103, R107). -/
def enterReleased : Sequence := { stage := .released, readyCount := 0, commanded := false, held := .none, timer := none }

/-- The roller forced SAFE, with nothing latched (06 R109). -/
def forceSafe (r : Roller) : Roller := { r with seq := Sequence.safe }

/-- The roller within the standstill band: |v_i| is not greater than it. -/
def atRest (band : Nat) (r : Roller) : Bool := decide (r.chan.speed.natAbs ≤ band)

/-- An enable direction (06 R99). -/
def enableDirection (r : Roller) : Roller :=
  match r.seq.stage with
  | .safe => { r with seq := enterTimed .enabling }
  | _ => r

/-- The test of a held apply (06 R104): it moves RELEASED to APPLYING once prev_i is 0 and the roller is within the band. -/
def testApply (band : Nat) (r : Roller) : Roller :=
  match r.seq.stage, r.seq.held with
  | .released, .apply =>
    if r.coup.prevSet = 0 ∧ atRest band r = true then { r with seq := enterTimed .applying } else r
  | _, _ => r

/-- The test of a held direction (06 R98 step 2): a held release moves ENERGISED to RELEASING within the band (06 R102), a held apply is
tested as R104 gives. -/
def testHeld (band : Nat) (r : Roller) : Roller :=
  match r.seq.stage, r.seq.held with
  | .energised, .release => if atRest band r then { r with seq := enterTimed .releasing } else r
  | _, _ => testApply band r

/-- A release direction (06 R102). -/
def releaseDirection (band : Nat) (r : Roller) : Roller :=
  match r.seq.stage with
  | .energised => testHeld band { r with seq := { r.seq with held := .release } }
  | _ => r

/-- An apply direction (06 R104). -/
def applyDirection (band : Nat) (r : Roller) : Roller :=
  match r.seq.stage with
  | .released => testHeld band { r with seq := { r.seq with held := .apply } }
  | _ => r

/-- The acknowledgement check of a status in a stage: what the stage requires and forbids (06 R106). -/
def ackOk (st : Stage) (x : Status) : Bool :=
  match st with
  | .safe => true
  | .enabling => !x.brakeOpen
  | .energised => x.enabled && !x.brakeOpen
  | .releasing => x.enabled
  | .released => x.enabled && x.brakeOpen
  | .applying => x.enabled
  | .disabling => !x.brakeOpen

/-- The count of consecutive fresh READY samples, and the enable commanded when it reaches 2 (06 R100). -/
def countReady (x : Status) (q : Sequence) : Sequence :=
  if x.ready then
    if x.fault then q
    else if q.readyCount + 1 = 2 then { q with readyCount := 2, commanded := true } else { q with readyCount := q.readyCount + 1 }
  else { q with readyCount := 0 }

/-- The stage's own test on the status of a fresh sample (06 R100, R101, R103, R105). The Bool says whether the stage changed. -/
def stageTest (x : Status) (q : Sequence) : Sequence × Bool :=
  match q.stage with
  | .enabling =>
    if q.commanded then (if x.enabled then (enterTimed .energised, true) else (q, false)) else (countReady x q, false)
  | .releasing => if x.brakeOpen then (enterReleased, true) else (q, false)
  | .applying => if !x.brakeOpen && x.enabled then (enterTimed .disabling, true) else (q, false)
  | .disabling => if x.enabled then (q, false) else (Sequence.safe, true)
  | _ => (q, false)

/-- Step 1 of the stage work (06 R98): the acknowledgement check, and, if it raises no fault, the stage's own test. The Bools say
whether a hard fault was raised and whether the stage changed. -/
def sampleStep (x : Status) (r : Roller) : Roller × Bool × Bool :=
  if ackOk r.seq.stage x then
    let q := stageTest x r.seq
    ({ r with seq := q.1 }, false, q.2)
  else ({ forceSafe r with chan := raiseFault .driveFault r.chan }, true, true)

/-- Expiry of the stage timer (06 R108): SEQ_TIMEOUT set and latched, the stage forced SAFE. -/
def timeOut (r : Roller) : Roller := { forceSafe r with chan := raiseFault .seqTimeout r.chan }

/-- Step 3 of the stage work (06 R107): a running timer advances by k, stopping at 65,535, and expires at or above the timeout. -/
def timerStep (timeout k : Nat) (r : Roller) : Roller × Bool :=
  match r.seq.timer with
  | none => (r, false)
  | some n =>
    let n' := satAt 65535 (n + k)
    if timeout ≤ n' then (timeOut r, true) else ({ r with seq := { r.seq with timer := some n' } }, false)

/-- The stage work of an accepted cycle (06 R98) on the status of a fresh or resync sample, or on none for a stale one. The Bool says
whether a hard fault was raised. -/
def stageWork (timeout band k : Nat) (x : Option Status) (r : Roller) : Roller × Bool :=
  let s1 : Roller × Bool × Bool := match x with
    | some st => sampleStep st r
    | none => (r, false, false)
  let r2 := testHeld band s1.1
  let moved := s1.2.2 || decide (r2.seq.stage ≠ s1.1.seq.stage)
  if moved then (r2, s1.2.1)
  else
    let s3 := timerStep timeout k r2
    (s3.1, s1.2.1 || s3.2)

end Sys2Proof.Machine
end

