-- ==== Sys2Proof/Machine/Simulation.lean ====
section
/-! DEFINITION. Group simulation (Chapter 4): group force, road load and load blends, inertia, and the speed outside FOLLOW and
TRACK. -/

namespace Sys2Proof.Machine

/-- The effective coefficients of a group: the LOADS entry its load set names (04 R57). -/
def effective (t : Tables) (g : Fin 4) : LoadsEntry :=
  if h : (t.groups.get g).loadSet < 8 then t.loads.get ⟨(t.groups.get g).loadSet, h⟩ else t.loads.get 0

/-- vmax_g: the smallest vmax among the members (04 R57). -/
def vmaxOf (t : Tables) (g : Fin 4) : Nat := minOver (fun i => (t.rollers.get i).vmax) (members t g)

/-- d_stop_min: the smallest d_stop among the members (04 R57). -/
def dStopMin (t : Tables) (g : Fin 4) : Nat := minOver (fun i => (t.rollers.get i).dStop) (members t g)

/-- The group force F_g: the forces of the members that are RELEASED (04 R59). -/
def groupForce (s : State) (g : Fin 4) : Int :=
  (four.map fun i =>
    if isMember s.tables.active g i && decide ((s.rollers.get i).seq.stage = .released) then (s.rollers.get i).chan.force else 0).sum

/-- The road-load magnitude at a speed magnitude (04 R60, R61). -/
def roadMagnitude (c : LoadsEntry) (s : Nat) : Nat :=
  if c.vCreep ≤ s then roundHalfUp (c.a * 10 ^ 9 + c.b * s * 10 ^ 4 + c.c * s ^ 2) (10 ^ 9)
  else roundHalfUp (c.a * 10 ^ 9 * s + (c.b * s * 10 ^ 4 + c.c * s ^ 2) * c.vCreep) (10 ^ 9 * c.vCreep)

/-- The road load of one set of coefficients, with the sign of v_g (04 R62). -/
def signedLoad (c : LoadsEntry) (v : Int) : Int := withSignOf v (roadMagnitude c v.natAbs)

/-- The road load F_rl: from the effective coefficients, or blended (04 R62, R63). -/
def roadLoad (eff : LoadsEntry) (blend : Option LoadBlend) (v : Int) : Int :=
  match blend with
  | none => signedLoad eff v
  | some b => roundHalfAway (signedLoad b.old v * ((b.len - b.pos : Nat) : Int) + signedLoad eff v * (b.pos : Int)) b.len

/-- The blend position after a step with gap k; the context is discarded when it reaches or passes its length (04 R64). -/
def advanceBlend (k : Nat) : Option LoadBlend → Option LoadBlend
  | none => none
  | some b => if b.len ≤ b.pos + k then none else some { b with pos := b.pos + k }

/-- The integration of FOLLOW and TRACK (04 R67), clamped to vmax_g where the new speed exceeds it (04 R69). A step that brings a speed
above a lowered vmax_g within it is not clamped (log 41). -/
def integrate (fnet : Int) (k t mass vmax : Nat) (g : Group) : Group :=
  let n := fnet * (k * t : Nat) + g.residue
  let v := g.speed + floorDiv n (10000 * mass)
  if vmax < v.natAbs then
    { g with speed := if v < 0 then -vmax else vmax, residue := 0, flags := { g.flags with simSat := true } }
  else { g with speed := v, residue := floorRem n (10000 * mass) }

/-- v moved toward 0 by a step, without overshoot (04 R71). -/
def towardZero (v : Int) (step : Nat) : Int :=
  if v.natAbs ≤ step then 0 else if 0 < v then v - step else v + step

/-- v_g and r after a step, as the group's state requires (04 R58 step 4, R67 to R72). -/
def moveSpeed (t : Tables) (g : Fin 4) (k : Nat) (fnet : Int) (x : Group) : Group :=
  match x.state with
  | .follow => integrate fnet k t.cell.cycleUs (t.groups.get g).mass (vmaxOf t g) x
  | .track => integrate fnet k t.cell.cycleUs (t.groups.get g).mass (vmaxOf t g) x
  | .stopping => { x with speed := towardZero x.speed (rateStep (dStopMin t g) k t.cell.cycleUs), residue := 0 }
  | _ => { x with speed := 0, residue := 0 }

end Sys2Proof.Machine
end

