-- ==== Sys2Proof/Machine/GroupStates.lean ====
section
/-! DEFINITION. Group states and fault handling (Chapter 7): entries to STOPPING and FAULTED, the hard fault event, the line fault event,
and a group's own tests within its step. -/

namespace Sys2Proof.Machine

/-- Tracking is left: the members' references are discarded, b becomes 0 and the blend direction none (05 R86). -/
def discardTrack (g : Fin 4) (s : State) : State :=
  (s.onMembers g fun r => { r with coup := { r.coup with reference := none } }).onGroup g fun x =>
    { x with blendPos := 0, dir := .none }

/-- Every member is forced SAFE, with nothing latched (06 R109). -/
def forceMembers (g : Fin 4) (s : State) : State := s.onMembers g forceSafe

/-- The entry to STOPPING with a cause: v_g kept, r = 0, the settle timer stopped, the wind-down mark clear, tracking left
(04 R73, 05 R86, 07 R120, R126). -/
def enterStopping (cause : StopCause) (g : Fin 4) (s : State) : State :=
  (discardTrack g s).onGroup g fun x =>
    { x with state := .stopping, cause := cause, windDown := false, settle := none, residue := 0 }

/-- The entry to FAULTED: v_g and r 0, no stop cause, the wind-down mark clear, the settle timer stopped (04 R73, 07 R124 to R127). -/
def enterFaulted (g : Fin 4) (s : State) : State :=
  s.onGroup g fun x =>
    { x with state := .faulted, cause := .none, windDown := false, settle := none, speed := 0, residue := 0 }

/-- A roller is RELEASED. -/
def isReleased (r : Roller) : Bool := decide (r.seq.stage = .released)

/-- A roller is SAFE. -/
def isSafe (r : Roller) : Bool := decide (r.seq.stage = .safe)

/-- A STOPPING group with cause ROLLER_FAULT and no member RELEASED enters FAULTED at once (07 R126). -/
def faultIfNoneReleased (g : Fin 4) (s : State) : State :=
  if anyMember s g isReleased then s else enterFaulted g s

/-- The test of a wind-down: with every member SAFE the group enters FAULTED (07 R124). -/
def windDownTest (g : Fin 4) (s : State) : State :=
  if (s.groups.get g).state = .stopping ∧ (s.groups.get g).windDown = true ∧ allMembers s g isSafe = true then enterFaulted g s else s

/-- A member's hard fault event reaches its group (07 R126). -/
def groupFault (g : Fin 4) (s : State) : State :=
  match (s.groups.get g).state with
  | .idle => s
  | .faulted => s
  | .engaging => enterFaulted g (forceMembers g s)
  | .disengaging => enterFaulted g (forceMembers g s)
  | .hold => faultIfNoneReleased g (enterStopping .rollerFault g s)
  | .follow => faultIfNoneReleased g (enterStopping .rollerFault g s)
  | .track => faultIfNoneReleased g (enterStopping .rollerFault g s)
  | .stopping =>
    if (s.groups.get g).windDown then windDownTest g s
    else faultIfNoneReleased g (s.onGroup g fun x => { x with cause := .rollerFault })

/-- A roller's hard fault event is sent to the group it is a member of (03 R54). -/
def hardFaultEvent (i : Fin 4) (s : State) : State :=
  match groupOfRoller s.tables.active i with
  | some g => groupFault g s
  | none => s

/-- The line fault event at one group (07 R127). -/
def lineFaultAt (g : Fin 4) (s : State) : State :=
  if (s.groups.get g).state = .idle then s
  else (discardTrack g (enterFaulted g (forceMembers g s))).onGroup g fun x => { x with loadBlend := none }

/-- The line fault event, which reaches every group (01 R18, 07 R127). -/
def lineFault (s : State) : State := lineFaultAt 3 (lineFaultAt 2 (lineFaultAt 1 (lineFaultAt 0 s)))

/-- The settle limit: the largest stage_timeout among the members (07 R125). -/
def settleLimit (t : Tables) (g : Fin 4) : Nat := maxOver (fun i => (t.rollers.get i).stageTimeout) (members t g)

/-- Expiry of the settle timer: every member forced SAFE, SETTLE_TIMEOUT set, the group FAULTED (07 R125). -/
def settleExpiry (g : Fin 4) (s : State) : State :=
  (enterFaulted g (forceMembers g s)).onGroup g fun x => { x with flags := { x.flags with settleTimeout := true } }

/-- A running settle timer advances by k, stopping at 65,535, and expires at or above the settle limit (07 R125). -/
def settleAdvance (g : Fin 4) (k n : Nat) (s : State) : State :=
  let n' := satAt 65535 (n + k)
  if settleLimit s.tables.active g ≤ n' then settleExpiry g s
  else s.onGroup g fun x => { x with settle := some n' }

/-- The completion test of a stop: v_g is 0 and every RELEASED member is within the standstill band (07 R123). -/
def stopComplete (g : Fin 4) (s : State) : Bool :=
  decide ((s.groups.get g).speed = 0) && allMembers s g (fun r => !isReleased r || atRest (bandOf s) r)

/-- With the wind-down mark set, the settle timer stops when no member is RELEASED (07 R125). -/
def stopIfNoneReleased (g : Fin 4) (s : State) : State :=
  if anyMember s g isReleased then s else s.onGroup g fun x => { x with settle := none }

/-- The outcome of a completed stop (07 R123). Under ROLLER_FAULT the settle timer runs on, or starts at 0 at this step (R125, log 17). -/
def completeStop (g : Fin 4) (s : State) : State :=
  match (s.groups.get g).cause with
  | .rollerFault =>
    let s1 := s.onGroup g fun x => { x with windDown := true, settle := some (x.settle.getD 0) }
    stopIfNoneReleased g (s1.onMembers g (applyDirection (bandOf s)))
  | _ => s.onGroup g fun x => { x with state := .hold, cause := .none, settle := none }

/-- The settle timer of a stop that has not completed: it starts at 0 at the first step that leaves v_g at 0, and advances at each
later step (07 R125). -/
def settleStep (g : Fin 4) (k : Nat) (s : State) : State :=
  match (s.groups.get g).settle with
  | some n => settleAdvance g k n s
  | none => if (s.groups.get g).speed = 0 then s.onGroup g fun x => { x with settle := some 0 } else s

/-- The settle timer during a wind-down: stopped once no member is RELEASED, advanced otherwise (07 R125). -/
def settleWindDown (g : Fin 4) (k : Nat) (s : State) : State :=
  match (s.groups.get g).settle with
  | some n => if anyMember s g isReleased then settleAdvance g k n s else s.onGroup g fun x => { x with settle := none }
  | none => s

/-- Test 1 of a step: completion and settle timer of a STOPPING group (07 R114, R123, R125). -/
def stopTests (g : Fin 4) (k : Nat) (s : State) : State :=
  if (s.groups.get g).state = .stopping then
    if (s.groups.get g).windDown then settleWindDown g k s
    else if stopComplete g s then completeStop g s
    else settleStep g k s
  else s

/-- Test 3 of a step: the release test and the HOLD test of an ENGAGING group, on published stages (07 R117). -/
def engagingTests (g : Fin 4) (s : State) : State :=
  if (s.groups.get g).state = .engaging then
    if allMembers s g (fun r => decide (r.published = .energised)) then s.onMembers g (releaseDirection (bandOf s))
    else if allMembers s g (fun r => decide (r.published = .released)) then
      s.onGroup g fun x => { x with state := .hold, speed := 0, residue := 0 }
    else s
  else s

/-- Test 4 of a step: a DISENGAGING group with every member SAFE enters IDLE (07 R121). -/
def disengagingTest (g : Fin 4) (s : State) : State :=
  if (s.groups.get g).state = .disengaging ∧ allMembers s g isSafe = true then
    s.onGroup g fun x => { x with state := .idle, speed := 0, residue := 0 }
  else s

/-- The group's own tests within its step, in their order (07 R114). A group with no members runs none. -/
def groupTests (g : Fin 4) (k : Nat) (s : State) : State :=
  if hasMembers s.tables.active g then disengagingTest g (engagingTests g (windDownTest g (stopTests g k s))) else s

/-- The results of the step handed on (04 R74): the state and stop cause after the tests, the new speed, F_g and F_rl. -/
def handOn (g : Fin 4) (force load : Int) (s : State) : State :=
  s.onGroup g fun x => { x with handed := { state := x.state, cause := x.cause, speed := x.speed, force := force, load := load } }

/-- One step of a group (04 R58). -/
def stepGroup (g : Fin 4) (k : Nat) (s : State) : State :=
  let x := s.groups.get g
  let fg := groupForce s g
  let frl := roadLoad (effective s.tables.active g) x.loadBlend x.speed
  let s1 := s.onGroup g fun y =>
    moveSpeed s.tables.active g k (fg - frl) { y with loadBlend := advanceBlend k y.loadBlend }
  handOn g fg frl (groupTests g k s1)

end Sys2Proof.Machine
end

