-- ==== Sys2Proof/Machine/Coupling.lean ====
section
/-! DEFINITION. Coupling and setpoint composition (Chapter 5): base speed, references and track error, correction, limits, the blend
position, and publication. -/

namespace Sys2Proof.Machine

/-- The base speed of a member (05 R78). -/
def baseSpeed (v trim : Int) : Int := v + roundHalfAway (v * trim) 1000000

/-- x as a signed 64-bit reference distance; the value of a sum outside that range is free (05 Section 5.1, R81; log 16). -/
def fitReference (x : Int) : Int :=
  if -(2 ^ 63) ≤ x ∧ x < 2 ^ 63 then x else (Config.openReference x).toInt

/-- A reference advanced by the previous base speed over the cycle's time (05 R81). -/
def advanceReference (k t : Nat) (r : Roller) : Roller :=
  { r with coup := { r.coup with reference := r.coup.reference.map fun x => fitReference (x + r.coup.prevBase * (k * t : Nat)) } }

/-- The track error of a member that holds a reference (05 R82). -/
def trackError (r : Roller) : Option Int := r.coup.reference.map fun x => x - r.chan.distance

/-- The error is beyond the slip limit (05 R82). -/
def beyondSlip (slip : Nat) (e : Option Int) : Bool :=
  match e with
  | some x => decide (slip * 1000000 < x.natAbs)
  | none => false

/-- The correction of a member in TRACK from its error, at blend position b of N_t (05 R84). -/
def correction (x : GroupsEntry) (b : Nat) (e : Int) : Int :=
  roundHalfAway (clampAbs (roundHalfAway (x.kp * e) 1000000000) x.corrMax * b) x.trackBlend

/-- The rate a member's setpoint may change at: d_stop while the group is STOPPING, a_max in every other state (05 R89). -/
def memberRate (cfg : RollersEntry) (st : GroupState) : Nat :=
  match st with
  | .stopping => cfg.dStop
  | _ => cfg.aMax

/-- The setpoint of a RELEASED member from its sum: clamped to vmax, then limited against the previous setpoint (05 R88, R89). -/
def limitSetpoint (vmax step : Nat) (prev sum : Int) : Int := clampAround (clampAbs sum vmax) prev step

/-- The blend position and direction after the composition (05 R85). The Bool says that tracking ends. -/
def moveBlend (nt k : Nat) (x : Group) : Group × Bool :=
  match x.dir with
  | .inward =>
    let b := min (x.blendPos + k) nt
    ({ x with blendPos := b, dir := if b = nt then .steady else .inward }, false)
  | .outward =>
    let b := x.blendPos - k
    ({ x with blendPos := b }, decide (b = 0))
  | _ => (x, false)

/-- Tracking ends: references discarded, no direction, the group returns to FOLLOW with v_g and r kept (05 R85). -/
def endTrack (g : Fin 4) (s : State) : State := (discardTrack g s).onGroup g fun x => { x with state := .follow }

/-- The blend position of a group moved, and tracking ended where it reaches 0 in OUT (05 R85). -/
def moveTrackBlend (g : Fin 4) (k : Nat) (s : State) : State :=
  let m := moveBlend (s.tables.active.groups.get g).trackBlend k (s.groups.get g)
  let s1 := s.onGroup g fun _ => m.1
  if m.2 then endTrack g s1 else s1

/-- What one composition forms for one member: base speed, sum before the clamp, error, setpoint. -/
structure Composed where
  base : Int
  sum : Int
  error : Option Int
  setpoint : Int
deriving DecidableEq, Repr

/-- The composition of one member (05 R78, R82, R84, R88, R89, R91). corrects says that the group is in TRACK and holds its track;
st is the group's state at this point; the roller's reference is already advanced. -/
def composeMember (t : Tables) (g i : Fin 4) (k : Nat) (x : Group) (corrects : Bool) (err : Option Int) (r : Roller) : Composed :=
  let cfg := t.rollers.get i
  let base := baseSpeed x.speed cfg.trim
  let corr := if corrects then (match err with
    | some e => correction (t.groups.get g) x.blendPos e
    | none => 0) else 0
  let sum := base + corr
  let step := rateStep (memberRate cfg x.state) k t.cell.cycleUs
  { base := base, sum := sum, error := err,
    setpoint := if isReleased r then limitSetpoint cfg.vmax step r.coup.prevSet sum else 0 }

/-- The vmax clamp changes a RELEASED member's sum (05 R88). -/
def clampActs (cfg : RollersEntry) (c : Composed) (r : Roller) : Bool := isReleased r && decide (clampAbs c.sum cfg.vmax ≠ c.sum)

/-- What a member keeps of its composition (05 R79). -/
def keepComposed (c : Composed) (r : Roller) : Roller :=
  { r with coup := { r.coup with prevBase := c.base, composed := r.chan.distance, error := c.error } }

/-- Step 2 of a composition: the references of a group in TRACK advanced (05 R81). -/
def advanceRefs (g : Fin 4) (k : Nat) (s : State) : State :=
  if (s.groups.get g).state = .track then s.onMembers g (advanceReference k (periodOf s)) else s

/-- Step 3: the track errors of the members of a group in TRACK, none for every other roller (05 R82). -/
def trackErrors (g : Fin 4) (s : State) : Quad (Option Int) :=
  Quad.of fun i =>
    if decide ((s.groups.get g).state = .track) && isMember s.tables.active g i then trackError (s.rollers.get i) else none

/-- An error exceeds the group's slip limit: the track is lost (05 R82). -/
def trackIsLost (g : Fin 4) (errs : Quad (Option Int)) (s : State) : Bool :=
  four.any fun i => beyondSlip (s.tables.active.groups.get g).slipLimit (errs.get i)

/-- The track lost: TRACK_LOST set, the group in STOPPING with cause TRACK_LOST (05 R82). -/
def loseTrack (g : Fin 4) (s : State) : State :=
  (enterStopping .trackLost g s).onGroup g fun x => { x with flags := { x.flags with trackLost := true } }

/-- Steps 1 and 4 to 7: what is formed for each roller as a member of the group (05 R78, R84, R88, R89, R91). A group corrects while it is
in TRACK. -/
def composedAll (g : Fin 4) (k : Nat) (errs : Quad (Option Int)) (s : State) : Quad Composed :=
  Quad.of fun i =>
    composeMember s.tables.active g i k (s.groups.get g) (decide ((s.groups.get g).state = .track)) (errs.get i) (s.rollers.get i)

/-- SET_SAT set when the clamp changes a member's sum (05 R88). -/
def markClamp (g : Fin 4) (comps : Quad Composed) (s : State) : State :=
  if four.any fun i => isMember s.tables.active g i && clampActs (s.tables.active.rollers.get i) (comps.get i) (s.rollers.get i) then
    s.onGroup g fun x => { x with flags := { x.flags with setSat := true } }
  else s

/-- Step 10: what each member keeps (05 R79). -/
def keepAll (g : Fin 4) (comps : Quad Composed) (s : State) : State :=
  { s with rollers := s.rollers.mapIdx fun i r => if isMember s.tables.active g i then keepComposed (comps.get i) r else r }

/-- Step 9: the blend position of a group in TRACK moved (05 R85). -/
def blendStep (g : Fin 4) (k : Nat) (s : State) : State :=
  if (s.groups.get g).state = .track then moveTrackBlend g k s else s

/-- Steps 2 and 3 with their outcome: references advanced, and the track lost where an error exceeds the slip limit (05 R81, R82). -/
def checkTrack (g : Fin 4) (k : Nat) (s : State) : State :=
  let s1 := advanceRefs g k s
  if trackIsLost g (trackErrors g s1) s1 then loseTrack g s1 else s1

/-- The composition of one group (05 Section 5.2), which gives the state and the setpoints of its members beside the others' so far. -/
def composeGroup (g : Fin 4) (k : Nat) (sp : State × Quad Int) : State × Quad Int :=
  let errs := trackErrors g (advanceRefs g k sp.1)
  let s2 := checkTrack g k sp.1
  let comps := composedAll g k errs s2
  (blendStep g k (keepAll g comps (markClamp g comps s2)),
    Quad.of fun i => if isMember s2.tables.active g i then (comps.get i).setpoint else sp.2.get i)

/-- The set of this cycle: the control word of each roller's stage as it stands, and its setpoint (05 R92, R93, 06 R96). -/
def setOf (s : State) (outs : Quad Int) : SetpointSet :=
  Quad.of fun i =>
    let c := controlOf (s.rollers.get i).seq
    { enable := c.1, release := c.2, setpoint := outs.get i }

/-- The Publication (05 R93): the set becomes the current set whole (02 R28), prev_i becomes the roller's setpoint, the published stages
of the members are recorded (07 R113), and a held apply is tested against the new prev_i (06 R104). -/
def publish (outs : Quad Int) (s : State) : State :=
  let s1 := s.onSlot fun x => { x with current := setOf s outs }
  { s1 with rollers := s1.rollers.mapIdx fun i r =>
      testApply (bandOf s) { r with coup := { r.coup with prevSet := outs.get i },
                                    published := r.seq.stage } }

/-- GROUP:TRACK from FOLLOW: every member's reference present at its composed distance, b = 0, direction IN (05 R80). -/
def beginTrack (g : Fin 4) (s : State) : State :=
  (s.onMembers g fun r => { r with coup := { r.coup with reference := some r.coup.composed } }).onGroup g fun x =>
    { x with state := .track, blendPos := 0, dir := .inward }

/-- A change of N_t at an application (05 R87). -/
def adjustBlend (nt : Nat) (x : Group) : Group :=
  match x.dir with
  | .inward =>
    let b := min x.blendPos nt
    { x with blendPos := b, dir := if b = nt then .steady else .inward }
  | .steady => { x with blendPos := nt }
  | .outward => { x with blendPos := min x.blendPos nt }
  | .none => x

end Sys2Proof.Machine
end

