-- ==== Sys2Proof/Machine/TableManager.lean ====
section
/-! DEFINITION. Tables, live edits and the Pending Change List (Chapter 8), locks and certification freeze (Chapter 9): applications and
their effects, live-due entries, records, and the entry into freeze. -/

namespace Sys2Proof.Machine

/-- What an application does to one group's simulation state: residue, load blend, blend position (08 R149; 04 R65, R66, R70; 05 R87). -/
def applyToGroup (active : Bool) (blend : Option Nat) (old new : Tables) (g : Fin 4) (x : Group) : Group :=
  let x1 := if (old.groups.get g).mass = (new.groups.get g).mass then x else { x with residue := 0 }
  let x2 :=
    if effective old g = effective new g then x1
    else { x1 with loadBlend := match active, blend with
                     | true, some n => some { old := effective old g, pos := 0, len := n }
                     | _, _ => none }
  if (old.groups.get g).trackBlend = (new.groups.get g).trackBlend then x2
  else adjustBlend (new.groups.get g).trackBlend x2

/-- What an application does to a group's state: a FAULTED group that had members and is left with none enters IDLE (07 R128). -/
def emptiedToIdle (old new : Tables) (g : Fin 4) (x : Group) : Group :=
  if x.state = .faulted ∧ hasMembers old g = true ∧ hasMembers new g = false then
    { x with state := .idle, speed := 0, residue := 0 }
  else x

/-- What an application does to a roller: one that joins a group has the published stage SAFE (07 R113). -/
def rejoined (old new : Tables) (i : Fin 4) (r : Roller) : Roller :=
  if (old.rollers.get i).group = (new.rollers.get i).group then r else { r with published := .safe }

/-- An application: the active copies replaced, with its effects (08 R149). blend is the blend cycles the change carries. -/
def applyTables (new : Tables) (blend : Option Nat) (s : State) : State :=
  let old := s.tables.active
  let active := decide (s.lpu.opState = .active)
  { s with
    tables := { s.tables with active := new }
    groups := s.groups.mapIdx fun g x => emptiedToIdle old new g (applyToGroup active blend old new g x)
    rollers := s.rollers.mapIdx fun i r => rejoined old new i r }

/-- The group change test (08 R139 step 6, R141, R148): every roller whose group changes leaves and joins groups that are IDLE or
FAULTED. -/
def groupChangeOk (s : State) (new : Tables) : Bool :=
  four.all fun i =>
    let a := groupOfRoller s.tables.active i
    let b := groupOfRoller new i
    (s.tables.active.rollers.get i).group == (new.rollers.get i).group
      || ((a.all (standing s)) && (b.all (standing s)))

/-- The live-due mark of a place. -/
def LiveDue.at (d : LiveDue) : Place → Bool
  | .cell => d.cell
  | .slots i => d.slots.get i
  | .rollers i => d.rollers.get i
  | .groups i => d.groups.get i
  | .loads i => d.loads.get i

/-- The live-due marks with one place's mark set or cleared. -/
def LiveDue.put (d : LiveDue) (p : Place) (b : Bool) : LiveDue :=
  match p with
  | .cell => { d with cell := b }
  | .slots i => { d with slots := d.slots.set i b }
  | .rollers i => { d with rollers := d.rollers.set i b }
  | .groups i => { d with groups := d.groups.set i b }
  | .loads i => { d with loads := d.loads.set i b }

/-- Every place an entry stands at, in table order and by ascending index (08 R141). -/
def placesInOrder : List Place :=
  .cell :: (four.map .slots ++ four.map .rollers ++ four.map .groups ++ eight.map .loads)

/-- Some live-due mark is set. -/
def LiveDue.any (d : LiveDue) : Bool := placesInOrder.any d.at

/-- A live-due entry dropped: LIVE_DROPPED set (08 R141). -/
def dropLive (s : State) : State := s.onTables fun x => { x with flags := { x.flags with liveDropped := true } }

/-- The live-due mark of one place taken at an accepted cycle (08 R141): copied when the live check and the group change test pass,
dropped with LIVE_DROPPED set otherwise. -/
def takeLiveDue (p : Place) (s : State) : State :=
  if s.tables.due.at p then
    let e := s.tables.staging.entryAt p
    let new := s.tables.active.putEntry p e
    let s1 := s.onTables fun x => { x with due := x.due.put p false }
    if liveCheck s.tables.active p e && groupChangeOk s new then applyTables new none s1
    else dropLive s1
  else s

/-- Step 1 of the Table Manager's work at an accepted cycle (08 R147, R141). -/
def takeAllLiveDue (s : State) : State := placesInOrder.foldl (fun s p => takeLiveDue p s) s

/-- A live-due mark taken at HALT as in BYPASS: cleared, and the entry copied at once where it passes the live check that a live write in
BYPASS must pass, and otherwise not copied, with no flag set, since HALT keeps the table flags (08 R136, R139, R141, R152; 01 R11; log
14). -/
def haltLiveDue (p : Place) (s : State) : State :=
  if s.tables.due.at p then
    let e := s.tables.staging.entryAt p
    let s1 := s.onTables fun x => { x with due := x.due.put p false }
    if liveCheck s.tables.active p e then applyTables (s.tables.active.putEntry p e) none s1 else s1
  else s

/-- Every live-due mark taken at HALT. -/
def haltAllLiveDue (s : State) : State := placesInOrder.foldl (fun s p => haltLiveDue p s) s

/-- The tables named by a mask lose their pin (08 R145). -/
def unpin (mask : Byte) (c : Five TableCtl) : Five TableCtl :=
  c.mapT fun t x => if maskNames mask t then { x with pinned := false } else x

/-- The tables named by a mask are pinned (08 R144). -/
def pin (mask : Byte) (c : Five TableCtl) : Five TableCtl :=
  c.mapT fun t x => if maskNames mask t then { x with pinned := true } else x

/-- Every pin cleared. -/
def unpinAll (c : Five TableCtl) : Five TableCtl := c.mapT fun _ x => { x with pinned := false }

/-- A record is due at E: its due cycle is not later than E (08 R147); a record due at the run's first accepted cycle is due at any. -/
def isDue (e : Nat) (r : ChangeRecord) : Bool :=
  match r.due with
  | none => true
  | some d => decide (d ≤ e)

/-- A due record taken (08 R148): applied when the commit check and the group change test pass, dropped with COMMIT_DROPPED set
otherwise; its tables are unpinned either way. -/
def takeRecord (r : ChangeRecord) (s : State) : State :=
  let new := Tables.merge (maskNames r.mask) s.tables.staging s.tables.active
  let s1 := s.onTables fun x => { x with ctl := unpin r.mask x.ctl }
  if commitCheck (maskNames r.mask) s.tables.staging s.tables.active && (!maskNames r.mask .rollers || groupChangeOk s new) then
    applyTables new r.blend s1
  else s1.onTables fun x => { x with flags := { x.flags with commitDropped := true } }

/-- Step 2 of the Table Manager's work: while the record at the head is due, it is taken (08 R147). -/
def takeRecords (e : Nat) : List ChangeRecord → State → State
  | [], s => s.onTables fun x => { x with changes := [] }
  | r :: rest, s => if isDue e r then takeRecords e rest (takeRecord r s) else s.onTables fun x => { x with changes := r :: rest }

/-- The Table Manager's work at an accepted cycle (08 R147). -/
def tableWork (e : Nat) (s : State) : State :=
  let s1 := takeAllLiveDue s
  takeRecords e s1.tables.changes s1

/-- One due cycle is not later than another; none is the run's first accepted cycle, before every numeric one (08 R144). -/
def dueNotLater (a b : Option Nat) : Bool :=
  match a, b with
  | none, _ => true
  | some _, none => false
  | some x, some y => decide (x ≤ y)

/-- A record placed after every record whose due cycle is not later than its own (08 R144). -/
def insertRecord (r : ChangeRecord) : List ChangeRecord → List ChangeRecord
  | [] => [r]
  | x :: xs => if dueNotLater x.due r.due then x :: insertRecord r xs else r :: x :: xs

/-- The list emptied and every pin cleared, with PENDING_DROPPED set if it held a record (08 R150). -/
def dropChanges (x : TableManager) : TableManager :=
  { x with changes := [], ctl := unpinAll x.ctl
           flags := { x.flags with pendingDropped := x.flags.pendingDropped || !x.changes.isEmpty } }

/-- The entry into freeze (09 R157): the list emptied, the live-due marks cleared, the LIVE flags cleared. -/
def freezeEntry (s : State) : State :=
  s.onTables fun x =>
    let y := dropChanges x
    { y with due := LiveDue.none, ctl := y.ctl.mapT fun _ c => { c with live := false }
             flags := { y.flags with pendingDropped := y.flags.pendingDropped || x.due.any } }

/-- A change that may complete the freeze condition: where freeze comes into effect by it, the entry is made (09 R157). -/
def withFreezeEntry (before after : State) : State :=
  if !inFreeze before && inFreeze after then freezeEntry after else after

end Sys2Proof.Machine
end

