-- ==== Sys2Proof/Machine/Tracing.lean ====
section
/-! DEFINITION. The Trace Buffer (Chapter 11) and the report image (02 R34). -/

namespace Sys2Proof.Machine

/-- A pointer advanced by one: from index 511 it goes to index 0 and its wrap bit changes (11 R176). -/
def TracePtr.next (p : TracePtr) : TracePtr :=
  if p.index + 1 < Config.tracePlaces then { p with index := p.index + 1 } else { index := 0, wrap := !p.wrap }

/-- The number of records the two pointers tell (11 R176). -/
def heldBetween (write read : TracePtr) : Nat :=
  if write.wrap = read.wrap then write.index - read.index else Config.tracePlaces + write.index - read.index

/-- The buffer is full: the indexes are equal and the wrap bits differ (11 R176). -/
def TraceBuffer.isFull (b : TraceBuffer) : Bool := decide (b.write.index = b.read.index) && decide (b.write.wrap ≠ b.read.wrap)

/-- The number of records held. -/
def TraceBuffer.held (b : TraceBuffer) : Nat := heldBetween b.write b.read

/-- The track error in µm, limited to ±32,767; 0 for none (11 R175). -/
def errorMicrons (e : Option Int) : Int :=
  match e with
  | none => 0
  | some x => clampAbs (roundHalfAway x 1000) 32767

/-- The record of the selected group for cycle E, as the accepted cycle left it (11 R175; log 15). -/
def traceRecordOf (e : Nat) (s : State) : TraceRecord :=
  let g := s.trace.group
  let x := s.groups.get g
  { cycle := e
    group := { state := x.handed.state, cause := x.handed.cause, dir := x.dir, windDown := false }
    blendPos := x.blendPos
    speed := x.handed.speed
    force := x.handed.force
    load := x.handed.load
    members := Quad.of fun i => isMember s.tables.active g i
    rollers := Quad.of fun i =>
      let r := s.rollers.get i
      { speed := r.chan.speed, setpoint := (s.slot.current.get i).setpoint, error := errorMicrons r.coup.error } }

/-- A record appended, or dropped and counted when the buffer is full (11 R176). -/
def appendRecord (r : TraceRecord) (b : TraceBuffer) : TraceBuffer :=
  if b.isFull then { b with overflowCount := satAt 65535 (b.overflowCount + 1), overflow := true }
  else { b with records := b.records ++ [r], write := b.write.next }

/-- The count of cycle E brings the decimation counter to d: it becomes 0 and a record is appended (11 R174, R176). -/
def traceReaches (e : Nat) (s : State) : State :=
  s.onTrace fun b => appendRecord (traceRecordOf e s) { b with counter := 0, lastCounted := some e }

/-- The next cycle counted brings the decimation counter to d (11 R174). -/
def reachesNext (b : TraceBuffer) : Bool := decide (b.counter + 1 = b.decimation)

/-- The Trace Buffer's work at an accepted cycle: the cycle is counted while the enable is on (11 R174). -/
def traceWork (e : Nat) (s : State) : State :=
  if s.trace.enable then
    if reachesNext s.trace then traceReaches e s
    else s.onTrace fun b => { b with counter := b.counter + 1, lastCounted := some e }
  else s

/-- The buffer emptied: the read pointer takes the write pointer's value (11 R173, R179). -/
def TraceBuffer.empty (b : TraceBuffer) : TraceBuffer := { b with records := [], read := b.write }

/-- The report image formed from the state as it stands, for a cycle (02 R34, R35). -/
def imageOf (cycle : Nat) (s : State) : ReportImage :=
  { freeze := inFreeze s, pendingCount := s.tables.changes.length, summary := summaryOf s, cycle := cycle
    groups := s.groups.mapIdx fun _ g => viewNoWind g
    speeds := s.groups.mapIdx fun _ g => g.speed }

/-- The report image replaced whole (02 R34). -/
def formImage (cycle : Nat) (s : State) : State := s.onSlot fun x => { x with image := some (imageOf cycle s) }

end Sys2Proof.Machine
end

