-- ==== Sys2Proof/Machine/Cycle.lean ====
section
/-! DEFINITION. The accepted cycle: what the blocks do, in order, when the LPU hands it over (01 R17; 08 R147; 03 R39; 06 R98; 04 R58;
05 R77, R93; 11 R174; 02 R34). -/

namespace Sys2Proof.Machine

/-- What one roller's sample comes to (03 R39, 06 R98): the measurement, the force to SAFE of a hard fault it raised (03 R54), the stage
work. The Bool says whether a hard fault was raised. -/
def takeSample (k : Nat) (resync : Bool) (cfg : RollersEntry) (t band : Nat) (sm : Sample) (r : Roller) : Roller × Bool :=
  let m := measure cfg t k resync sm r.chan
  let w := stageWork cfg.stageTimeout band k (if m.usable then some sm.status else none)
    { r with chan := m.chan, seq := if m.fault then Sequence.safe else r.seq }
  (w.1, m.fault || w.2)

/-- One channel takes the cycle: its sample, and one hard fault event to the group where one or more faults were raised (03 R54; log 8). A
channel whose buffer is empty takes nothing (log 27). -/
def channelTakes (k : Nat) (resync : Bool) (i : Fin 4) (s : State) : State :=
  match s.slot.buffers.get i with
  | none => s
  | some sm =>
    let w := takeSample k resync (s.tables.active.rollers.get i) (periodOf s) (bandOf s) sm (s.rollers.get i)
    let s1 := s.onRoller i fun _ => w.1
    if w.2 then hardFaultEvent i s1 else s1

/-- The order in which the channels take the cycle: the rollers named first, each once, then the others ascending (log 8). -/
def channelOrder (order : List (Fin 4)) : List (Fin 4) :=
  (order ++ four).foldl (fun acc i => if acc.contains i then acc else acc ++ [i]) []

/-- Every in-field buffer emptied (02 R26). -/
def clearBuffers (s : State) : State := s.onSlot fun x => { x with buffers := Quad.all none }

/-- One group steps and is composed directly after its step (05 R77). -/
def groupTakes (k : Nat) (g : Fin 4) (sp : State × Quad Int) : State × Quad Int := composeGroup g k (stepGroup g k sp.1, sp.2)

/-- Every group steps and is composed; the setpoints start at 0, which absent rollers keep (05 R91). -/
def groupsTake (k : Nat) (s : State) : State × Quad Int :=
  groupTakes k 3 (groupTakes k 2 (groupTakes k 1 (groupTakes k 0 (s, Quad.all 0))))

/-- Every channel takes the cycle, in an order; the samples are then handed over and every buffer is empty (02 R26). -/
def channelsTake (order : List (Fin 4)) (k : Nat) (resync : Bool) (s : State) : State :=
  clearBuffers ((channelOrder order).foldl (fun s i => channelTakes k resync i s) s)

/-- An accepted cycle handed over with its E, its gap k and its resync mark (01 R17). -/
def acceptedCycle (order : List (Fin 4)) (e k : Nat) (resync : Bool) (s : State) : State :=
  let s1 := tableWork e s
  let s2 := channelsTake order k resync s1
  let sp := groupsTake k s2
  let s3 := publish sp.2 sp.1
  formImage e (traceWork e s3)

end Sys2Proof.Machine
end

