-- ==== Sys2Proof/Machine/Resets.lean ====
section
/-! DEFINITION. Reset events, the store load, START and HALT: the values each chapter gives for them (01 R22, 02 R37, 03 R56, 04 R76,
05 R95, 06 R111, 07 R131, 08 R152, 09 R153, R155, 10 R172, 11 R179, 12 R185). -/

namespace Sys2Proof.Machine

/-- The values every reset event gives. keep says that the sticky flags, their counters, the unanswered record and the freeze request
flag are kept, as RESTART does (12 R185). Lock states, the image and the table copies are left to the event. -/
def resetValues (keep : Bool) (s : State) : State :=
  { s with
    lpu := if keep then Lpu.initial s.lpu.flags s.lpu.checkErrCount s.lpu.missedCount else Lpu.initial LineFlags.none 0 0
    slot := SlotEngine.initial
    rollers := s.rollers.mapIdx fun _ r => Roller.initial (if keep then r.chan.flags else RollerFlags.none)
    groups := s.groups.mapIdx fun _ g => Group.initial (if keep then g.flags else GroupFlags.none)
    tables := { s.tables with
      ctl := s.tables.ctl.mapT fun _ c => { c with live := false, pinned := false }
      due := LiveDue.none
      changes := []
      freezeFlag := keep && s.tables.freezeFlag
      flags := if keep then s.tables.flags else TableFlags.none }
    svc := { s.svc with
      queue := []
      orphans := []
      unanswered := if keep then s.svc.unanswered else none }
    trace := if keep then TraceBuffer.initial s.trace.overflowCount s.trace.overflow else TraceBuffer.initial 0 false
    store := { s.store with
      state := .idle
      fail := keep && s.store.fail
      invalid := keep && s.store.invalid
      restart := none } }

/-- Every lock state UNLOCKED (09 R153, power-up). -/
def unlockAll (c : Five TableCtl) : Five TableCtl := c.mapT fun _ x => { x with lock := .unlocked }

/-- What the loss of power leaves: the image alone is non-volatile (12 R180); the table copies take the factory defaults until a load
replaces them (log 2), locks end (09 R153), no frame is in passage. -/
def volatileLost (s : State) : State :=
  let s1 := resetValues false s
  { s1 with
    outPass := none
    retPass := none
    tables := { s1.tables with staging := factoryTables, active := factoryTables, ctl := unlockAll s1.tables.ctl } }

/-- A pass that goes on after a RESTART has taken effect, with no further writes (01 R7). -/
def cutPass (p : Option Pass) : Option Pass := p.map fun x => { x with cut := true, matched := none }

/-- The tables an image gives when it is valid: its check word equals the check over its contents (12 R180, R183). -/
def validImage (im : Option StoreImage) : Option Tables :=
  match im with
  | some x => if crc32 x.contents = x.check then some (tablesOf x.contents) else none
  | none => none

/-- The store load (12 R183): both copies of every table from the image, or the factory defaults with STORE_INVALID set. -/
def loadTables (s : State) : State :=
  match validImage s.store.image with
  | some t => s.onTables fun x => { x with staging := t, active := t }
  | none =>
    (s.onTables fun x => { x with staging := factoryTables, active := factoryTables }).onStore fun x => { x with invalid := true }

/-- Completion of the load: the part enters BYPASS, and freeze comes into effect if its condition then holds (12 R183, 09 R155). -/
def completeLoad (s : State) : State :=
  let s1 := loadTables s
  withFreezeEntry s (s1.onLpu fun x => { x with opState := .bypass })

/-- The LPU as a run begins or ends: E and L unset, both timers stopped, no resync due (01 R10, R11, R22). -/
def runEdge (st : OpState) (x : Lpu) : Lpu :=
  { x with opState := st, ext := none, last := none, resyncDue := false, silenceTimer := none, arrivalTimer := none }

/-- The run begins, before the report image (01 R10; 02 R23, R28, R37; 03 R56; 04 R76; 05 R95; 06 R111; 07 R131; 11 R179). -/
def runBegins (s : State) : State :=
  { s with
    lpu := runEdge .active s.lpu
    slot := { positions := some { slots := s.tables.active.slots, report := s.tables.active.cell.report }
              buffers := Quad.all none
              current := Quad.all Command.clear
              image := none }
    rollers := s.rollers.mapIdx fun _ r => Roller.initial r.chan.flags
    groups := s.groups.mapIdx fun _ g => Group.initial g.flags
    tables := { s.tables with due := LiveDue.none, changes := [], ctl := unpinAll s.tables.ctl }
    trace := { s.trace.empty with counter := 0, lastCounted := none } }

/-- The part enters ACTIVE (01 R10): the run begins, and the report image is formed for cycle 0 from the state START leaves (02 R34). -/
def startRun (s : State) : State := formImage 0 (runBegins s)

/-- A group as HALT leaves it: IDLE, with no blend (04 R76, 05 R95, 07 R131). -/
def haltGroup (x : Group) : Group :=
  { x with state := .idle, cause := .none, windDown := false, settle := none, speed := 0, residue := 0, loadBlend := none,
           blendPos := 0, dir := .none }

/-- The run ends, before the tables (01 R11, R12): E, L and the timers, the buffers, the references, the groups, a return pass in
progress. Published stages are kept as they stand, even where a line fault has forced their rollers SAFE since (07 R131; log 38). -/
def runEnds (s : State) : State :=
  { s with
    lpu := runEdge .bypass s.lpu
    slot := { s.slot with buffers := Quad.all none }
    rollers := s.rollers.mapIdx fun _ r => { r with coup := { r.coup with reference := none } }
    groups := s.groups.mapIdx fun _ g => haltGroup g
    retPass := s.retPass.map fun p => { p with voided := true } }

/-- The part enters BYPASS (01 R11): FAULTED groups IDLE, live-due marks taken at once (08 R141), the list emptied (08 R150), the
in-fields of a return pass in progress discarded (01 R12). -/
def haltRun (s : State) : State := (haltAllLiveDue (runEnds s)).onTables dropChanges

end Sys2Proof.Machine
end

