-- ==== Sys2Proof/Machine/Requests.lean ====
section
/-! DEFINITION. The eighteen requests as their owners judge and serve them: each gives its reply and the state it leaves. -/

namespace Sys2Proof.Machine

/-- A reply and the state the request leaves. -/
abbrev Served := Reply × State

/-- A refusal without payload, which changes nothing (10 Section 10.1, R163). -/
def refuse (c : ResultCode) (s : State) : Served := (plainReply c, s)

/-- IDENTIFY (10 R167). -/
def ownIdentify (s : State) : Served :=
  ({ code := .done
     payload := leBytes 2 Config.partCode ++ leBytes 1 Config.revision ++ leBytes 1 s.tables.active.cell.station
       ++ leBytes 1 (opStateCode s.lpu.opState) }, s)

/-- The freeze byte: request flag, CERT line, freeze in effect (13 Section 13.2, 09 R161). -/
def freezeByte (s : State) : Nat := bitsOf [s.tables.freezeFlag, s.cert, inFreeze s]

/-- The four bytes of the unanswered record, all 0 when it is empty (13 R187). -/
def unansweredBytes (u : Option Unanswered) : List Byte :=
  match u with
  | none => leBytes 4 0
  | some u => leBytes 1 u.kind.toNat ++ leBytes 2 u.cycle.toNat ++ leBytes 1 (resultCode u.code)

/-- The 44 bytes of the status of the whole part (10 R168, 13 R187). -/
def statusBytes (s : State) : List Byte :=
  leBytes 1 (opStateCode s.lpu.opState) ++ leBytes 1 (freezeByte s) ++ leBytes 4 (s.lpu.ext.getD 0)
    ++ leBytes 1 (bitsOf [s.lpu.ext.isNone, s.lpu.resyncDue, s.svc.unanswered.isSome])
    ++ s.groups.toList.flatMap (fun g => leBytes 1 (groupByte (viewOf g)))
    ++ s.rollers.toList.flatMap (fun r => leBytes 1 (rollerByte r))
    ++ tableStatusBytes s.tables.ctl ++ leBytes 1 s.tables.changes.length ++ stickyBytes s
    ++ leBytes 2 s.lpu.checkErrCount ++ leBytes 4 s.lpu.missedCount ++ leBytes 2 s.trace.held ++ leBytes 2 s.trace.overflowCount
    ++ leBytes 1 (storeCode s.store.state) ++ unansweredBytes s.svc.unanswered

/-- READ_STATUS (10 R168). -/
def ownReadStatus (s : State) : Served := ({ code := .done, payload := statusBytes s }, s)

/-- CLEAR_FLAGS (10 R170). A mask that names no flag clears nothing; the reply carries the flags as the request left them (log 30). -/
def ownClearFlags (mask : BitVec 64) (s : State) : Served :=
  let s1 := clearSticky mask s
  ({ code := .done, payload := stickyBytes s1 }, s1)

/-- START (01 R10). -/
def ownStart (s : State) : Served :=
  match s.lpu.opState with
  | .active => (plainReply .done, s)
  | .bypass => if startCheck s.tables.active then (plainReply .done, startRun s) else refuse .invalid s
  | .starting => refuse .state s

/-- HALT (01 R11). -/
def ownHalt (s : State) : Served :=
  match s.lpu.opState with
  | .bypass => (plainReply .done, s)
  | .active => if four.all (standing s) then (plainReply .done, haltRun s) else refuse .state s
  | .starting => refuse .state s

/-- A reply to a GROUP request: it carries the group's state as the request left it when the group number lies in 0..3 (07 R115). -/
def groupReply (c : ResultCode) (g : Byte) (s : State) : Reply :=
  { code := c
    payload := if h : g.toNat < 4 then leBytes 1 (groupByte (viewOf (s.groups.get ⟨g.toNat, h⟩))) else [] }

/-- What a GROUP action comes to: its result and the state it leaves. -/
abbrev Acted := ResultCode × State

/-- A roller's last fresh status shows READY without FAULT (07 R116). -/
def driveReady (r : Roller) : Bool :=
  match r.chan.lastStatus with
  | some x => x.ready && !x.fault
  | none => false

/-- A roller's last fresh status shows FAULT (07 R122). -/
def driveFaulted (r : Roller) : Bool :=
  match r.chan.lastStatus with
  | some x => x.fault
  | none => false

/-- GROUP:ENGAGE is taken in IDLE: E set, no member's latch set, every member's drive ready (07 R116). -/
def mayEngage (g : Fin 4) (s : State) : Bool :=
  s.lpu.ext.isSome && allMembers s g (fun r => !r.chan.latch.isSet && driveReady r)

/-- The entry to ENGAGING with an enable direction to every member (07 R116, 06 R99). -/
def beginEngage (g : Fin 4) (s : State) : State :=
  (s.onGroup g fun x => { x with state := .engaging }).onMembers g enableDirection

/-- GROUP:ENGAGE (07 R115, R116). -/
def actEngage (g : Fin 4) (s : State) : Acted :=
  match (s.groups.get g).state with
  | .idle => if mayEngage g s then (.done, beginEngage g s) else (.state, s)
  | .engaging => (.done, s)
  | _ => (.state, s)

/-- GROUP:RUN (07 R115, R118). -/
def actRun (g : Fin 4) (s : State) : Acted :=
  match (s.groups.get g).state with
  | .hold => (.done, s.onGroup g fun x => { x with state := .follow, speed := 0, residue := 0 })
  | .follow => (.done, s)
  | _ => (.state, s)

/-- GROUP:TRACK (07 R115, R119; 05 R80). -/
def actTrack (g : Fin 4) (s : State) : Acted :=
  match (s.groups.get g).state with
  | .follow => (.done, beginTrack g s)
  | .track =>
    match (s.groups.get g).dir with
    | .outward => (.done, s.onGroup g fun x => { x with dir := .inward })
    | _ => (.done, s)
  | _ => (.state, s)

/-- GROUP:UNTRACK (07 R115, R119). -/
def actUntrack (g : Fin 4) (s : State) : Acted :=
  match (s.groups.get g).state with
  | .follow => (.done, s)
  | .track =>
    match (s.groups.get g).dir with
    | .outward => (.done, s)
    | _ => (.done, s.onGroup g fun x => { x with dir := .outward })
  | _ => (.state, s)

/-- GROUP:STOP (07 R115, R120). -/
def actStop (g : Fin 4) (s : State) : Acted :=
  match (s.groups.get g).state with
  | .follow => (.done, enterStopping .request g s)
  | .track => (.done, enterStopping .request g s)
  | .stopping => (.done, s)
  | _ => (.state, s)

/-- The entry to DISENGAGING with an apply direction to every member (07 R121, 06 R104). -/
def beginDisengage (g : Fin 4) (s : State) : State :=
  (s.onGroup g fun x => { x with state := .disengaging }).onMembers g (applyDirection (bandOf s))

/-- GROUP:DISENGAGE (07 R115, R121). -/
def actDisengage (g : Fin 4) (s : State) : Acted :=
  match (s.groups.get g).state with
  | .hold => (.done, beginDisengage g s)
  | .disengaging => (.done, s)
  | _ => (.state, s)

/-- The latches of the members cleared with all their causes, and the group IDLE (07 R122). -/
def clearGroup (g : Fin 4) (s : State) : State :=
  (s.onMembers g fun r => { r with chan := { r.chan with latch := Latch.clear } }).onGroup g fun x =>
    { x with state := .idle, speed := 0, residue := 0 }

/-- GROUP:CLEAR (07 R115, R122). -/
def actClear (g : Fin 4) (s : State) : Acted :=
  match (s.groups.get g).state with
  | .idle => if anyMember s g driveFaulted then (.state, s) else (.done, clearGroup g s)
  | .faulted => if anyMember s g driveFaulted then (.state, s) else (.done, clearGroup g s)
  | _ => (.state, s)

/-- The action of a code (13 Section 13.4). -/
def groupAction (a : Nat) : Option (Fin 4 → State → Acted) :=
  match a with
  | 1 => some actEngage
  | 2 => some actRun
  | 3 => some actTrack
  | 4 => some actUntrack
  | 5 => some actStop
  | 6 => some actDisengage
  | 7 => some actClear
  | _ => none

/-- GROUP, judged in the order of 07 R115. -/
def ownGroup (g a : Byte) (s : State) : Served :=
  if s.lpu.opState ≠ .active then (groupReply .state g s, s)
  else
    match groupAction a.toNat with
    | none => (groupReply .invalid g s, s)
    | some act =>
      if h : g.toNat < 4 then
        if hasMembers s.tables.active ⟨g.toNat, h⟩ then
          let r := act ⟨g.toNat, h⟩ s
          (groupReply r.1 g r.2, r.2)
        else (groupReply .invalid g s, s)
      else (groupReply .invalid g s, s)

/-- READ_ENTRY (08 R138). Its live-due byte is 1 for a set mark and 0 for a clear one (log 42). -/
def ownReadEntry (t i c : Byte) (s : State) : Served :=
  match tableOf t with
  | none => refuse .invalid s
  | some tb =>
    match placeOf tb i.toNat with
    | none => refuse .invalid s
    | some p =>
      let answer (copy : Tables) : Served :=
        ({ code := .done
           payload := entryBytes (copy.entryAt p) ++ leBytes 1 (tableStatusByte (s.tables.ctl.get tb))
             ++ leBytes 1 (s.tables.due.at p).toNat }, s)
      match c.toNat with
      | 0 => answer s.tables.staging
      | 1 => answer s.tables.active
      | _ => refuse .invalid s

/-- The table is LOCKED or LOCKED_DOWN (09 R153). -/
def isLocked (s : State) (t : Table) : Bool := decide ((s.tables.ctl.get t).lock ≠ .unlocked)

/-- A WRITE_ENTRY that passes its judgement (08 R139, R140). -/
def writePassed (p : Place) (e : Entry) (s : State) : Served :=
  let s1 := s.onTables fun x => { x with staging := x.staging.putEntry p e }
  if (s.tables.ctl.get p.table).live then
    match s.lpu.opState with
    | .active => (plainReply .accepted, s1.onTables fun x => { x with due := x.due.put p true })
    | _ => (plainReply .done, applyTables (s.tables.active.putEntry p e) none s1)
  else (plainReply .done, s1)

/-- WRITE_ENTRY of an entry at a place, judged in the order of 08 R139 from step 2 on. -/
def writeAt (p : Place) (bs : List Byte) (s : State) : Served :=
  if isLocked s p.table || inFreeze s then refuse .barred s
  else if (s.tables.ctl.get p.table).pinned then refuse .pending s
  else
    match entryOf p.table bs with
    | none => refuse .invalid s
    | some e =>
      if !entryCheck e then refuse .invalid s
      else if (s.tables.ctl.get p.table).live && !liveCheck s.tables.active p e then refuse .invalid s
      else if (s.tables.ctl.get p.table).live && decide (s.lpu.opState = .active) && !groupChangeOk s (s.tables.active.putEntry p e) then refuse .state s
      else writePassed p e s

/-- WRITE_ENTRY (10 R163 steps 2 and 3, 08 R139). -/
def ownWriteEntry (t i : Byte) (bs : List Byte) (s : State) : Served :=
  match tableOf t with
  | none => refuse .invalid s
  | some tb =>
    if bs.length ≠ entrySize tb then refuse .length s
    else
      match placeOf tb i.toNat with
      | none => refuse .invalid s
      | some p => writeAt p bs s

/-- A run table: one that can have its LIVE flag on (08 R132). -/
def isRunTable : Table → Bool
  | .cell => false
  | .slots => false
  | _ => true

/-- SET_LIVE (08 R142). -/
def ownSetLive (t v : Byte) (s : State) : Served :=
  match tableOf t with
  | none => refuse .invalid s
  | some tb =>
    if !isRunTable tb then refuse .invalid s
    else
      let put (b : Bool) : Served :=
        (plainReply .done, s.onTables fun x => { x with ctl := x.ctl.set tb { x.ctl.get tb with live := b } })
      match v.toNat with
      | 0 => put false
      | 1 => if isLocked s tb || inFreeze s then refuse .barred s else put true
      | _ => refuse .invalid s

/-- The due cycle of a COMMIT accepted in ACTIVE (08 R144). -/
def dueCycle (ext effective : Option Nat) : Option Nat :=
  match effective with
  | some x => some x
  | none => ext.map (· + 1)

/-- A COMMIT accepted in ACTIVE: its record placed in the list, its tables pinned (08 R144). -/
def acceptCommit (mask : Byte) (effective blend : Option Nat) (s : State) : State :=
  let r : ChangeRecord := { mask := mask, effective := effective, blend := blend, due := dueCycle s.lpu.ext effective }
  s.onTables fun x => { x with changes := insertRecord r x.changes, ctl := pin mask x.ctl }

/-- The judgement of COMMIT in ACTIVE on its effective cycle (08 R143 steps 5 and 6): the refusal, if any. -/
def effectiveRefusal (ext effective : Option Nat) : Option ResultCode :=
  match effective with
  | none => none
  | some x =>
    match ext with
    | none => some .state
    | some e => if e + 1 ≤ x ∧ x ≤ e + 2 ^ 20 then none else some .invalid

/-- Some table named by a mask satisfies a test. -/
def anyNamed (mask : Byte) (p : Table → Bool) : Bool := tablesInOrder.any fun t => maskNames mask t && p t

/-- COMMIT in ACTIVE, judged in the order of 08 R143 from step 4 on. -/
def commitActive (mask : Byte) (effective blend : Option Nat) (s : State) : Served :=
  if anyNamed mask (fun t => !isRunTable t) then refuse .state s
  else
    match effectiveRefusal s.lpu.ext effective with
    | some c => refuse c s
    | none =>
      if anyNamed mask (fun t => (s.tables.ctl.get t).pinned) then refuse .pending s
      else if Config.changesMax ≤ s.tables.changes.length then refuse .full s
      else if !commitCheck (maskNames mask) s.tables.staging s.tables.active then refuse .invalid s
      else
        let s1 := acceptCommit mask effective blend s
        ({ code := .accepted, payload := leBytes 1 s1.tables.changes.length }, s1)

/-- A frame in passage meets an application of CELL: the station it leaves is the frame's where its target byte is still to pass (10 R162;
log 12). -/
def Pass.meetStation (station : Nat) (p : Pass) : Pass :=
  if p.ahead = 0 then p else { p with station := station, ahead := p.ahead - 1 }

/-- A commit that names CELL has been applied while an outbound frame passes (10 R162). -/
def noteStation (mask : Byte) (s : State) : State :=
  if maskNames mask .cell then { s with outPass := s.outPass.map (Pass.meetStation s.tables.active.cell.station) } else s

/-- COMMIT in BYPASS, judged in the order of 08 R143 from step 3 on; applied at once, with no blend (04 R76). -/
def commitBypass (mask : Byte) (effective blend : Option Nat) (s : State) : Served :=
  if effective.isSome then refuse .invalid s
  else if !commitCheck (maskNames mask) s.tables.staging s.tables.active then refuse .invalid s
  else
    let s1 := noteStation mask (applyTables (Tables.merge (maskNames mask) s.tables.staging s.tables.active) blend s)
    ({ code := .done, payload := leBytes 1 s1.tables.changes.length }, s1)

/-- COMMIT (08 R143). -/
def ownCommit (mask presence : Byte) (effective : BitVec 64) (blend : BitVec 16) (s : State) : Served :=
  let eff := givenEffective presence effective
  let bl := givenBlend presence blend
  if decide (mask = 0) || !maskInRange mask || !(bl.all (inRange 1 4096)) then refuse .invalid s
  else if anyNamed mask (isLocked s) || inFreeze s then refuse .barred s
  else
    match s.lpu.opState with
    | .active => commitActive mask eff bl s
    | _ => commitBypass mask eff bl s

/-- The masks share a table. -/
def sharesTable (a b : Byte) : Bool := tablesInOrder.any fun t => maskNames a t && maskNames b t

/-- CANCEL (08 R146). -/
def ownCancel (mask : Byte) (s : State) : Served :=
  if !maskInRange mask then refuse .invalid s
  else
    let gone := s.tables.changes.filter fun r => sharesTable mask r.mask
    let stay := s.tables.changes.filter fun r => !sharesTable mask r.mask
    let s1 := s.onTables fun x => { x with changes := stay, ctl := gone.foldl (fun c r => unpin r.mask c) x.ctl }
    ({ code := .done, payload := leBytes 1 gone.length }, s1)

/-- One table in mode LOCK: locked with LIVE cleared when UNLOCKED, no change otherwise (09 R154). -/
def lockTable (c : TableCtl) : TableCtl :=
  match c.lock with
  | .unlocked => { c with lock := .locked, live := false }
  | _ => c

/-- One table in mode LOCK_DOWN (09 R154). -/
def lockDownTable (c : TableCtl) : TableCtl :=
  match c.lock with
  | .unlocked => { c with lock := .lockedDown, live := false }
  | .locked => { c with lock := .lockedDown }
  | .lockedDown => c

/-- One table in mode UNLOCK (09 R154). -/
def unlockTable (c : TableCtl) : TableCtl :=
  match c.lock with
  | .locked => { c with lock := .unlocked }
  | _ => c

/-- The tables a mask names changed by a function. -/
def onNamed (mask : Byte) (f : TableCtl → TableCtl) (s : State) : State :=
  s.onTables fun x => { x with ctl := x.ctl.mapT fun t c => if maskNames mask t then f c else c }

/-- A reply to LOCK: the table status bytes of all five tables as the request left them (09 R154). -/
def lockReply (c : ResultCode) (s : State) : Served := ({ code := c, payload := tableStatusBytes s.tables.ctl }, s)

/-- LOCK, judged in the order of 09 R154. -/
def ownLock (mask mode : Byte) (s : State) : Served :=
  if decide (mask = 0) || !maskInRange mask then lockReply .invalid s
  else
    match mode.toNat with
    | 0 => lockReply .done (onNamed mask lockTable s)
    | 1 =>
      if inFreeze s then lockReply .barred s
      else if anyNamed mask (fun t => decide ((s.tables.ctl.get t).lock = .lockedDown)) then lockReply .barred s
      else lockReply .done (onNamed mask unlockTable s)
    | 2 => lockReply .done (onNamed mask lockDownTable s)
    | _ => lockReply .invalid s

/-- A reply to FREEZE or THAW: the freeze byte as the request left it (09 R156). -/
def freezeReply (c : ResultCode) (s : State) : Served := ({ code := c, payload := leBytes 1 (freezeByte s) }, s)

/-- FREEZE (09 R156). -/
def ownFreeze (s : State) : Served :=
  freezeReply .done (withFreezeEntry s (s.onTables fun x => { x with freezeFlag := true }))

/-- THAW (09 R156). -/
def ownThaw (s : State) : Served :=
  if s.cert then freezeReply .barred s else freezeReply .done (s.onTables fun x => { x with freezeFlag := false })

/-- TRACE_SET taken (11 R173). -/
def setTrace (g : Fin 4) (d : Nat) (enable : Bool) (b : TraceBuffer) : TraceBuffer :=
  let b1 := if g = b.group then b else b.empty
  { b1 with group := g, decimation := d, enable := enable, counter := 0 }

/-- The enable a code names: 0 off, 1 on (13 Section 13.4). -/
def onOff (v : Byte) : Option Bool :=
  match v.toNat with
  | 0 => some false
  | 1 => some true
  | _ => none

/-- TRACE_SET (11 R173). -/
def ownTraceSet (g d en : Byte) (s : State) : Served :=
  match onOff en with
  | none => refuse .invalid s
  | some v =>
    if h : g.toNat < 4 then
      if inRange 1 64 d.toNat then
        let s1 := s.onTrace (setTrace ⟨g.toNat, h⟩ d.toNat v)
        ({ code := .done
           payload := leBytes 1 s1.trace.group.val ++ leBytes 1 s1.trace.decimation ++ leBytes 1 s1.trace.enable.toNat
             ++ leBytes 2 s1.trace.held }, s1)
      else refuse .invalid s
    else refuse .invalid s

/-- READ_TRACE (11 R177). -/
def ownReadTrace (s : State) : Served :=
  match s.trace.records with
  | [] => (plainReply .done, s)
  | r :: rest => ({ code := .done, payload := traceBytes r }, s.onTrace fun b => { b with records := rest, read := b.read.next })

/-- A reply to STORE_SAVE: the store state as the request left it (12 R181). -/
def storeReply (c : ResultCode) (s : State) : Served := ({ code := c, payload := leBytes 1 (storeCode s.store.state) }, s)

/-- STORE_SAVE (12 R181). -/
def ownStoreSave (s : State) : Served :=
  match s.store.state with
  | .saving _ => storeReply .busy s
  | _ =>
    if s.store.restart.isSome then storeReply .state s
    else storeReply .accepted (s.onStore fun x => { x with state := .saving s.tables.active, image := none })

/-- RESTART (12 R184). -/
def ownRestart (s : State) : Served :=
  if inFreeze s then refuse .barred s
  else if s.lpu.opState = .active then refuse .state s
  else
    match s.store.state with
    | .saving _ => refuse .state s
    | _ =>
      if s.store.restart.isSome then (plainReply .done, s)
      else (plainReply .accepted, s.onStore fun x => { x with restart := some { waited := 0, entry := none } })

/-- A request served by its owner. -/
def own (r : Request) (s : State) : Served :=
  match r with
  | .identify => ownIdentify s
  | .readStatus => ownReadStatus s
  | .clearFlags m => ownClearFlags m s
  | .start => ownStart s
  | .halt => ownHalt s
  | .group g a => ownGroup g a s
  | .readEntry t i c => ownReadEntry t i c s
  | .writeEntry t i e => ownWriteEntry t i e s
  | .setLive t v => ownSetLive t v s
  | .commit m p e b => ownCommit m p e b s
  | .cancel m => ownCancel m s
  | .lock m md => ownLock m md s
  | .freeze => ownFreeze s
  | .thaw => ownThaw s
  | .traceSet g d e => ownTraceSet g d e s
  | .readTrace => ownReadTrace s
  | .storeSave => ownStoreSave s
  | .restart => ownRestart s

end Sys2Proof.Machine
end

