-- ==== Sys2Proof/Machine/Service.lean ====
section
/-! DEFINITION. The Service Responder (Chapter 10): serving a request, taking one from a frame, the reply queue, late and unanswered results,
and the effect of a RESTART, which waits for its entry to leave the queue (12 R184, R185). -/

namespace Sys2Proof.Machine

/-- The requests in service, oldest first: those whose entry has left the queue, then those in it (10 R164, R166). -/
def awaiting (s : State) : List ReplyEntry := (s.svc.orphans ++ s.svc.queue).filter fun e => e.result.isNone

/-- The entry with a number replaced by a function of itself, in the queue and among those that have left it. -/
def State.onEntry (s : State) (id : Nat) (f : ReplyEntry → ReplyEntry) : State :=
  s.onSvc fun x => { x with
    queue := x.queue.map fun e => if e.id = id then f e else e
    orphans := x.orphans.map fun e => if e.id = id then f e else e }

/-- A RESTART accepted from a frame waits for its own reply-queue entry, and its 10 ms run from the moment its request was taken (12
R184). Kind 18 is RESTART (13 Section 13.4). -/
def linkRestart (e : ReplyEntry) (rep : Reply) (s : State) : State :=
  if e.kind = 18 ∧ rep.code = .accepted then s.onStore fun x => { x with restart := x.restart.map fun _ => { waited := e.age, entry := some e.id } }
  else s

/-- A request served by its owner, with the reply kept (log 24). -/
def serveNow (r : Request) (s : State) : Served :=
  let p := own r s
  (p.1, p.2.onSvc fun x => { x with lastReply := some p.1 })

/-- The entry a request row answers: the oldest in service that asks for it and has no answer yet (log 9). -/
def entryFor (r : Request) (s : State) : Option ReplyEntry :=
  (awaiting s).find? fun e => e.answer.isNone && decide (requestOf e.kind e.payload = some r)

/-- An owner serves a request (10 Section 10.3). The reply goes to the entry that waits for it (log 9). Nothing is served while no
request is taken (01 R7, R9). -/
def serveRow (r : Request) (s : State) : State :=
  if takesRequests s then
    let p := serveNow r s
    match entryFor r s with
    | some e => linkRestart e p.1 (p.2.onEntry e.id fun x => { x with answer := some p.1 })
    | none => p.2
  else s

/-- A result becomes unanswered: LATE_REPLY set and the unanswered record replaced whole (10 R166). -/
def recordUnanswered (e : ReplyEntry) (code : ResultCode) (s : State) : State :=
  (s.onLpu fun x => { x with flags := { x.flags with lateReply := true } }).onSvc fun x =>
    { x with unanswered := some { kind := e.kind, cycle := e.cycle, code := code } }

/-- The queue without an entry. -/
def removeEntry (id : Nat) (s : State) : State := s.onSvc fun x => { x with queue := x.queue.filter fun e => decide (e.id ≠ id) }

/-- An entry that has left the queue while in service (10 R166). record says whether its result is recorded when present. -/
def orphan (record : Bool) (e : ReplyEntry) (s : State) : State :=
  s.onSvc fun x => { x with orphans := x.orphans ++ [{ e with record := record }] }

/-- An entry removed and handled as unanswered: at once for a result already present, when it is present otherwise (10 R166). -/
def dropEntry (e : ReplyEntry) (s : State) : State :=
  match e.result with
  | some r => recordUnanswered e r.code (removeEntry e.id s)
  | none => orphan true e (removeEntry e.id s)

/-- The result of an entry removed with its frame, which is not recorded (10 R165; log 25). -/
def dropSilently (e : ReplyEntry) (s : State) : State :=
  match e.result with
  | some _ => removeEntry e.id s
  | none => orphan false e (removeEntry e.id s)

/-- A full queue gives up its oldest entry (10 R164). -/
def makeRoom (s : State) : State :=
  if Config.queueMax ≤ s.svc.queue.length then
    match s.svc.queue with
    | e :: _ => dropEntry e s
    | [] => s
  else s

/-- The result of a request that is refused before it reaches an owner (10 R163). -/
def judgedResult (kind : Byte) (len : Nat) (payload : List Byte) : Option Reply :=
  match judge kind len payload with
  | .inl c => some (plainReply c)
  | .inr _ => none

/-- A request is taken: its entry goes to the tail of the queue and it is judged (10 R163, R164). -/
def takeRequest (kind : Byte) (len : Nat) (payload : List Byte) (cycle : BitVec 16) (s : State) : State :=
  (makeRoom s).onSvc fun x => { x with
    nextId := x.nextId + 1
    queue := x.queue ++ [{ id := x.nextId, cycle := cycle, kind := kind, payload := payload, answer := none,
                           result := judgedResult kind len payload, age := 0, record := false }] }

/-- The answer of a request in service: the one its owner has given, or the one it gives now (log 9). -/
def answerOf (e : ReplyEntry) (s : State) : Served :=
  match e.answer with
  | some a => (a, s)
  | none =>
    match requestOf e.kind e.payload with
    | some r =>
      let p := serveNow r s
      (p.1, linkRestart e p.1 p.2)
    | none => (plainReply .unknown, s)

/-- The result of a request in service becomes present (10 R164): in its entry, or recorded if its entry was removed as unanswered
(10 R166). -/
def resultPresent (e : ReplyEntry) (rep : Reply) (s : State) : State :=
  if s.svc.queue.any fun x => decide (x.id = e.id) then s.onEntry e.id fun x => { x with result := some rep }
  else
    let s1 := s.onSvc fun x => { x with orphans := x.orphans.filter fun y => decide (y.id ≠ e.id) }
    if e.record then recordUnanswered e rep.code s1 else s1

/-- Every request in service that has not yet acted is served (12 R185; log 11). -/
def serveOutstanding (s : State) : State :=
  (awaiting s).foldl (fun s e => (answerOf e s).2) s

/-- A RESTART takes effect (12 R185): the requests taken have acted, every block takes its RESTART value, passes in progress are
completed with no further writes (01 R7). The load follows (12 R183). -/
def restartEffect (s : State) : State :=
  let s1 := resetValues true (serveOutstanding s)
  { s1 with outPass := cutPass s1.outPass, retPass := cutPass s1.retPass }

/-- The number stands in the queue or among the requests still in service. -/
def isHeld (id : Nat) (s : State) : Bool := (s.svc.queue ++ s.svc.orphans).any fun e => decide (e.id = id)

/-- The entry of the RESTART that awaits its effect has left the queue (12 R184). -/
def restartDue (s : State) : Bool :=
  match s.store.restart with
  | some { entry := some id, .. } => !isHeld id s
  | _ => false

/-- What follows a step that may have removed entries: the RESTART takes effect if its entry has left (12 R184; log 11). -/
def afterQueue (s : State) : State := if restartDue s then restartEffect s else s

/-- An owner finishes serving one of the requests in service, oldest first (10 R164). -/
def completeService (which : Nat) (s : State) : State :=
  match (awaiting s)[which]? with
  | some e =>
    let p := answerOf e s
    afterQueue (resultPresent e p.1 p.2)
  | none => s

/-- Some entries dropped as unanswered, oldest first. -/
def dropAll (es : List ReplyEntry) (s : State) : State := es.foldl (fun s e => dropEntry e s) s

/-- The comparison of a return frame's cycle number with the reply queue (10 R165): entries older than the first that matches are
dropped as unanswered, and the number of the matching entry is given. The cycle number alone is compared, not the target station (log
43). -/
def matchReturn (cycle : BitVec 16) (s : State) : Option Nat × State :=
  match s.svc.queue.dropWhile fun e => decide (e.cycle ≠ cycle) with
  | e :: _ => (some e.id, dropAll (s.svc.queue.takeWhile fun e => decide (e.cycle ≠ cycle)) s)
  | [] => (none, s)

end Sys2Proof.Machine
end

