-- ==== Sys2Proof/Machine/Line.lean ====
section
/-! DEFINITION. The frames on the line and the line timers (Chapters 1 and 2): passes, writes, check words, out-fields, in-fields and the
report field, the service area, acceptance, silence, and the passing of time. -/

namespace Sys2Proof.Machine

/-- The pass is of a cycle frame fixed in BYPASS or ACTIVE, so the part follows it to its check word (01 R2, R6). -/
def Pass.followed (p : Pass) : Bool :=
  match p.mode with
  | .bypass => true
  | .active => true
  | _ => false

/-- The frame's length on the link is the one its header declares (01 R4). -/
def Pass.whole (p : Pass) : Bool := decide (p.rx.length = declaredLen p.rx)

/-- Bytes of the part's own placed into the frame, as far as the frame reaches; a frame into which one is placed is a written
frame (01 R3). -/
def Pass.write (p : Pass) (off : Nat) (bs : List Byte) : Pass :=
  { p with tx := patchAt p.tx off bs, written := p.written || (decide (off < p.tx.length) && !bs.isEmpty) }

/-- The pass is fixed in ACTIVE, is not short and has not been cut by a RESTART: the Slot Engine works on it (02 R25, R29, R36; 01 R7). -/
def Pass.slotWork (p : Pass) : Bool :=
  (match p.mode with
   | .active => true
   | _ => false) && !p.short && !p.cut

/-- The check word a written frame is sent with: the check over the bytes as forwarded, or its complement (01 R3). -/
def sentCheck (good : Bool) (p : Pass) : List Byte :=
  checkBytes (if good then checkOver p.tx (checkAt p.rx) else ~~~ checkOver p.tx (checkAt p.rx))

/-- The frame as forwarded to its declared end (01 R3). -/
def forwarded (good : Bool) (p : Pass) : List Byte :=
  if p.written then p.tx.take (checkAt p.rx) ++ sentCheck good p else p.tx.take (declaredLen p.rx)

/-- The frame as it leaves the other port (01 R3, R4): a frame that ends early is aborted at the same point, one that runs on is
aborted in place of the first byte beyond its declared end. What of the check word leaves is that of a bad check in both. -/
def sentFrame (p : Pass) : SentFrame :=
  if p.whole then { bytes := forwarded (checkGood p.rx) p, aborted := false }
  else if p.rx.length < declaredLen p.rx then { bytes := (forwarded false p).take p.tx.length, aborted := true }
  else { bytes := forwarded false p, aborted := true }

/-- A check proves bad (01 R5): CHECK_ERR set, the check-error count increased. -/
def checkBad (s : State) : State :=
  s.onLpu fun x => { x with flags := { x.flags with checkErr := true }, checkErrCount := satAt 65535 (x.checkErrCount + 1) }

/-- The mode a pass is fixed in when its header has arrived (01 R2, R6, R7, R9). -/
def modeOf (s : State) (bytes : List Byte) : PassMode :=
  if isCycleFrame bytes then
    if s.resetLine then .starting
    else
      match s.lpu.opState with
      | .starting => .starting
      | .bypass => .bypass
      | .active => .active
  else .plain

/-- The target station, the request kind, the request length and the payload in a frame's service area (13, Service area). -/
def serviceByte (bs : List Byte) (n : Nat) : Byte := bs.getD (serviceAt bs + n) 0

/-- The 64 payload bytes of a frame's service area. -/
def servicePayload (bs : List Byte) : List Byte := sliceAt bs (serviceAt bs + 6) 64

/-- A pass as its header finds it (01 R6, R13). A pass holds the frame's bytes alone, without a mark for a link abort at arrival (R4;
log 40). -/
def newPass (s : State) (f : LinkFrame) : Pass :=
  { rx := f.bytes, tx := f.bytes, mode := modeOf s f.bytes, short := decide (frameSlotLen f.bytes < s.tables.active.cell.slotAreaLen)
    written := false, cut := false, voided := false, station := s.tables.active.cell.station, ahead := f.ahead, latched := none
    matched := none }

/-- What a frame the part does not follow leaves as: the bytes as they arrived (01 R2, R7, R9). -/
def sentUnfollowed (p : Pass) (sent : Option SentFrame) : Option SentFrame :=
  if p.followed then sent else some { bytes := p.rx, aborted := false }

/-- An outbound frame's header arrives (01 R6). -/
def outHeader (f : LinkFrame) (s : State) : State :=
  let p := newPass s f
  { s with outPass := some p, sentD := sentUnfollowed p s.sentD }

/-- A return frame's header arrives: its buffers are empty (02 R26) and a followed frame is compared with the reply queue (10 R165). -/
def returnHeader (f : LinkFrame) (s : State) : State :=
  let p := newPass s f
  let m := if p.followed then matchReturn (frameCycle f.bytes) s else (none, s)
  afterQueue { clearBuffers m.2 with retPass := some { p with matched := m.1 }, sentM := sentUnfollowed p s.sentM }

/-- The offsets of a roller taken at START, if it is present (02 R23). -/
def offsetsOf (s : State) (i : Fin 4) : Option (Nat × Nat) :=
  match s.slot.positions with
  | some m =>
    match m.slots.get i with
    | .present o n => some (o, n)
    | .absent => none
  | none => none

/-- The offset of the first out-field: the lowest among the present rollers (02 R29). -/
def firstOut (s : State) : Option Nat := (four.filterMap fun i => (offsetsOf s i).map (·.1)).min?

/-- A slot-area offset lies inside the frame as it comes on the link. -/
def reaches (p : Pass) (off : Nat) : Bool := decide (slotAreaAt + off < p.rx.length)

/-- The set of the frame: the one latched, or the current set latched now (02 R29). -/
def latchedSet (s : State) (p : Pass) : SetpointSet := p.latched.getD s.slot.current

/-- The first byte of the first out-field arrives: the current set is latched whole as the set of this frame (02 R29). -/
def latchFirst (s : State) : State :=
  match s.outPass, firstOut s with
  | some p, some off =>
    if p.slotWork && reaches p off then { s with outPass := some { p with latched := some (latchedSet s p) } } else s
  | _, _ => s

/-- The stage gate (02 R31): it can only clear a command or replace a setpoint by 0. -/
def gate (q : Sequence) (c : Command) : Command :=
  match q.stage with
  | .safe => Command.clear
  | .disabling => Command.clear
  | .enabling => if q.commanded then { enable := c.enable, release := false, setpoint := 0 } else Command.clear
  | .energised => { enable := c.enable, release := false, setpoint := 0 }
  | .applying => { enable := c.enable, release := false, setpoint := 0 }
  | .releasing => { enable := c.enable, release := c.release, setpoint := 0 }
  | .released => c

/-- A roller's out-field passes: it is written from the latched set through the gate, which reads the stage as it stands (02 R29, R31). -/
def passOutField (i : Fin 4) (s : State) : State :=
  match s.outPass, offsetsOf s i with
  | some p, some (off, _) =>
    if p.slotWork && reaches p off then
      let set := latchedSet s p
      let p1 := { p with latched := some set }
      { s with outPass := some (p1.write (slotAreaAt + off) (outFieldBytes (gate (s.rollers.get i).seq (set.get i)))) }
    else s
  | _, _ => s

/-- A roller's in-field passes whole: its buffer holds the sample, read from the bytes as they arrive (02 R25). -/
def passInField (i : Fin 4) (s : State) : State :=
  match s.retPass, offsetsOf s i with
  | some p, some (_, off) =>
    if p.slotWork && decide (slotAreaAt + off + inFieldLen ≤ p.rx.length) then
      s.onSlot fun x => { x with buffers := x.buffers.set i (some (sampleOf (sliceAt p.rx (slotAreaAt + off) inFieldLen))) }
    else s
  | _, _ => s

/-- The report offset taken at START, if present (02 R23). -/
def reportAt (s : State) : Option Nat :=
  match s.slot.positions with
  | some m => m.report
  | none => none

/-- The report field's first byte arrives: all its bytes are written from the report image (02 R36). -/
def passReport (s : State) : State :=
  match s.retPass, reportAt s, s.slot.image with
  | some p, some off, some im =>
    if p.slotWork && reaches p off then { s with retPass := some (p.write (slotAreaAt + off) (reportBytes im)) } else s
  | _, _, _ => s

/-- The entry of a number in the reply queue. -/
def entryOfId (id : Nat) (s : State) : Option ReplyEntry := s.svc.queue.find? fun e => decide (e.id = id)

/-- The reply of a matched entry is written and the entry removed, or, with no result present, the entry is removed as late (10 R165,
R166). That a frame which ends inside its service area is late too is the model's choice (log 44). The reply state stands at offset 3 of the
service area. -/
def answerFrame (p : Pass) (e : ReplyEntry) (s : State) : State :=
  match e.result with
  | some rep => { removeEntry e.id s with retPass := some ({ p with matched := none }.write (serviceAt p.rx + 3) (replyBytes rep)) }
  | none => { dropEntry e s with retPass := some { p with matched := none } }

/-- The service area of a return frame arrives, its first byte at least (10 R165; log 44). -/
def passService (s : State) : State :=
  match s.retPass with
  | some p =>
    if p.followed && !p.cut && decide (serviceAt p.rx < p.rx.length) then
      match p.matched.bind fun id => entryOfId id s with
      | some e => afterQueue (answerFrame p e s)
      | none => s
    else s
  | none => s

/-- The frame's target station equals CELL.station as it stood when the target byte passed (10 R162). -/
def Pass.addressed (p : Pass) : Bool := decide ((serviceByte p.rx 0).toNat = p.station)

/-- What the good check of an outbound pass gives: its request is taken if the frame is addressed to the part (10 R162). -/
def takeFromFrame (p : Pass) (s : State) : State :=
  if p.addressed then takeRequest (serviceByte p.rx 1) (serviceByte p.rx 2).toNat (servicePayload p.rx) (frameCycle p.rx) s else s

/-- An outbound cycle frame's check word arrives (01 R3, R5; 10 R162). The check of a pass that a RESTART interrupted does
nothing, by the model's choice: a bad one is not counted and a good one gives no request (log 37). -/
def closeOut (s : State) : State :=
  match s.outPass with
  | some p =>
    if p.followed && p.whole then
      let s1 := { s with outPass := none, sentD := some (sentFrame p) }
      if p.cut then s1
      else if checkGood p.rx then afterQueue (takeFromFrame p s1)
      else checkBad s1
    else s
  | none => s

/-- The silence time (01 R18). -/
def silenceLimit (s : State) : Nat := (s.tables.active.cell.missLimit + 2) * periodOf s

/-- Expiry of the line silence timer (01 R18). -/
def silenceExpiry (s : State) : State :=
  lineFault (s.onLpu fun x =>
    { x with silenceTimer := none, flags := { x.flags with ringLost := true }, resyncDue := true })

/-- The microseconds the line silence timer has left (01 R18): none when it does not run. -/
def silenceLeft (s : State) : Option Nat :=
  match s.lpu.opState, s.lpu.ext, s.lpu.silenceTimer with
  | .active, some _, some t => some (silenceLimit s - t)
  | _, _, _ => none

/-- The microseconds a RESTART has left to wait (12 R184). -/
def restartLeft (s : State) : Option Nat := s.store.restart.map fun w => Config.restartWait - w.waited

/-- A time left falls within dt. inclusive says whether an end that falls together with the end of dt is taken in it. -/
def within (inclusive : Bool) (dt : Nat) (left : Option Nat) : Bool :=
  match left with
  | some r => if inclusive then decide (r ≤ dt) else decide (r < dt)
  | none => false

/-- The requests taken grown older (12 R184). -/
def ageEntries (dt : Nat) (x : Responder) : Responder :=
  let older := fun e : ReplyEntry => { e with age := e.age + dt }
  { x with queue := x.queue.map older, orphans := x.orphans.map older }

/-- The running timers advanced, the time since a request was taken among them. -/
def advanceTimers (dt : Nat) (s : State) : State :=
  ((s.onLpu fun x => { x with silenceTimer := x.silenceTimer.map (· + dt), arrivalTimer := x.arrivalTimer.map (· + dt) }).onStore fun x =>
    { x with restart := x.restart.map fun w => { w with waited := w.waited + dt } }).onSvc (ageEntries dt)

/-- The wait of a RESTART ends before the line silence timer does. -/
def restartFirst (s : State) : Bool :=
  match silenceLeft s, restartLeft s with
  | some a, some b => decide (b < a)
  | none, some _ => true
  | _, none => false

/-- dt microseconds pass (log 7): the line silence timer expires and a RESTART takes effect where their time falls within dt, the
earlier first. -/
def elapse (inclusive : Bool) (dt : Nat) (s : State) : State :=
  let silence := within inclusive dt (silenceLeft s)
  let restart := within inclusive dt (restartLeft s)
  if restart && restartFirst s then restartEffect s
  else
    let s1 := if silence then silenceExpiry s else s
    if restart then restartEffect s1 else advanceTimers dt s1

/-- The LPU as it accepts a frame (01 R14): E and L advanced, both timers restarted, no resync due. -/
def acceptLpu (e : Nat) (cycle : BitVec 16) (x : Lpu) : Lpu :=
  { x with ext := some e, last := some cycle, resyncDue := false, silenceTimer := some 0, arrivalTimer := some 0 }

/-- The first cycle of a run (01 R14). -/
def acceptFirst (order : List (Fin 4)) (cycle : BitVec 16) (s : State) : State :=
  acceptedCycle order cycle.toNat 1 false (s.onLpu (acceptLpu cycle.toNat cycle))

/-- The measured interval departs from k × T by more than the tolerance (01 R20). -/
def offTime (s : State) (k : Nat) : Bool :=
  decide (s.tables.active.cell.toleranceUs < ((s.lpu.arrivalTimer.getD 0 : Int) - ((k * periodOf s : Nat) : Int)).natAbs)

/-- MISSED with its count, and OFF_TIME, at an ordinary acceptance with gap k (01 R14, R20). -/
def countMissed (k : Nat) (late : Bool) (x : Lpu) : Lpu :=
  { x with
    flags := { x.flags with missed := x.flags.missed || decide (1 < k), offTime := x.flags.offTime || late }
    missedCount := satAt 4294967295 (x.missedCount + (k - 1)) }

/-- An ordinary acceptance (01 R14). -/
def acceptOrdinary (order : List (Fin 4)) (e k : Nat) (cycle : BitVec 16) (s : State) : State :=
  acceptedCycle order (e + k) k false ((s.onLpu (countMissed k (offTime s k))).onLpu (acceptLpu (e + k) cycle))

/-- A resync (01 R15): RESYNC, the line fault event, then the acceptance with k = 1 and the resync mark. -/
def acceptResync (order : List (Fin 4)) (e gap : Nat) (cycle : BitVec 16) (s : State) : State :=
  let e1 := e + (if gap = 0 then 65536 else gap)
  let s1 := lineFault (s.onLpu fun x => { x with flags := { x.flags with resync := true } })
  acceptedCycle order e1 1 true (s1.onLpu (acceptLpu e1 cycle))

/-- The gap of a frame (01 R14). -/
def gapOf (s : State) (cycle : BitVec 16) : Nat := (cycle - s.lpu.last.getD 0).toNat

/-- The classification of a good return frame (01 R14). -/
def classify (order : List (Fin 4)) (cycle : BitVec 16) (s : State) : State :=
  match s.lpu.ext with
  | none => acceptFirst order cycle s
  | some e =>
    let gap := gapOf s cycle
    if s.lpu.resyncDue then acceptResync order e gap cycle s
    else if gap = 0 then s.onLpu fun x => { x with flags := { x.flags with duplicate := true } }
    else if gap ≤ s.tables.active.cell.missLimit + 1 then acceptOrdinary order e gap cycle s
    else acceptResync order e gap cycle s

/-- The pass can give an accepted cycle: fixed in ACTIVE, in a run that no HALT has ended since, and the part still in ACTIVE (01 R12,
R14). -/
def mayAccept (p : Pass) (s : State) : Bool :=
  decide (p.mode = .active) && !p.voided && decide (s.lpu.opState = .active)

/-- A good return pass (01 R8, R13, R14). -/
def goodReturn (order : List (Fin 4)) (p : Pass) (s : State) : State :=
  if decide (p.mode = .active) && p.short then s.onLpu fun x => { x with flags := { x.flags with shortFrame := true } }
  else if mayAccept p s then classify order (frameCycle p.rx) s
  else s

/-- A return cycle frame's check word arrives, with the time that has passed (01 R3, R5, R14). The buffers are empty afterwards (02 R26).
The check of a pass that a RESTART interrupted does nothing, by the model's choice: a bad one is not counted, a good one sets no SHORT_FRAME
and is not classified, not even after the load has completed (log 37). -/
def closeReturn (elapsed : Nat) (order : List (Fin 4)) (s : State) : State :=
  let s0 := elapse false elapsed s
  match s0.retPass with
  | some p =>
    if p.followed && p.whole then
      let s1 := { s0 with retPass := none, sentM := some (sentFrame p) }
      if p.cut then clearBuffers s1
      else if checkGood p.rx then clearBuffers (goodReturn order p s1)
      else clearBuffers (checkBad s1)
    else s
  | none => s

/-- The entry of a frame that ended before its service area had passed whole, and that is still in the queue, is removed all the same, with
nothing recorded (10 R165; logs 25 and 44). -/
def cutReply (p : Pass) (s : State) : State :=
  match p.matched.bind fun id => entryOfId id s with
  | some e => if p.rx.length < declaredLen p.rx then dropSilently e s else s
  | none => s

/-- What the bad check of a frame of the wrong length does (01 R4, R5): nothing on a pass that a RESTART interrupted (log 37). -/
def cutCheck (p : Pass) (s : State) : State := if p.cut then s else checkBad s

/-- A frame whose length on the link is not the declared one ends (01 R4). -/
def cutShort (port : Port) (s : State) : State :=
  match port with
  | .m =>
    match s.outPass with
    | some p =>
      if p.followed && !p.whole then cutCheck p { s with outPass := none, sentD := some (sentFrame p) } else s
    | none => s
  | .d =>
    match s.retPass with
    | some p =>
      if p.followed && !p.whole then
        afterQueue (clearBuffers (cutReply p (cutCheck p { s with retPass := none, sentM := some (sentFrame p) })))
      else s
    | none => s

end Sys2Proof.Machine
end

