-- ==== Sys2Proof/Machine/ExecReset.lean ====
section
/-! DEFINITION. The meanings of the commands for power, RESET, the store's completions and the pins: POWER_UP, RESET_ASSERT, RESET_RELEASE,
STORE_LOAD_COMPLETE, CERT_ASSERT, CERT_RELEASE, SAVE_COMPLETE, RESTART_EFFECT, POWER_DOWN. -/

namespace Sys2Proof.Machine

/-- What exec answers. -/
abbrev Outcome := Host.Outcome State Fault Refusal

/-- Power is applied: every block takes its power-up values and the part is in STARTING (01 R7, R22). -/
def powerUp (s : State) : State := { volatileLost s with powered := true }

/-- Power is removed (12 R182, 09 R153): the volatile state is lost, a save in progress leaves the image invalid (log 19). -/
def powerDown (s : State) : State := { volatileLost s with powered := false }

/-- The frame that leaves a port, as it would leave whole: the one in passage with its check word of R3 and R4, or, with none in passage,
the last one that closed, whose check word may still be on its way out. -/
def leaving (p : Option Pass) (sent : Option SentFrame) : Option SentFrame :=
  match p with
  | some p => some (if p.followed then sentFrame p else { bytes := p.rx, aborted := false })
  | none => sent

/-- A frame ended with a link abort once n of its bytes have been sent (01 R9). A frame whose bytes had all been sent stays as it is
(log 18). -/
def SentFrame.abortAt (n : Nat) (f : SentFrame) : SentFrame :=
  if n < f.bytes.length then { bytes := f.bytes.take n, aborted := true } else f

/-- Assertion of the RESET line (01 R9): the RESET-line values, the frames that are leaving aborted at the transmitting port. -/
def assertReset (sentAtD sentAtM : Nat) (s : State) : State :=
  if s.resetLine then s
  else if s.powered then
    { resetValues false s with
      resetLine := true
      outPass := none
      retPass := none
      sentD := (leaving s.outPass s.sentD).map (SentFrame.abortAt sentAtD)
      sentM := (leaving s.retPass s.sentM).map (SentFrame.abortAt sentAtM) }
  else { s with resetLine := true }

/-- The store load completes in STARTING (12 R183, 01 R7). -/
def loadComplete (s : State) : State :=
  if s.powered && !s.resetLine && decide (s.lpu.opState = .starting) then completeLoad s else s

/-- A save completes and is read back (12 R182). -/
def saveDone (verified : Bool) (s : State) : State :=
  match s.store.state with
  | .saving snap =>
    if verified then
      s.onStore fun x =>
        { x with state := .idle, image := some { contents := tablesBytes snap, check := crc32 (tablesBytes snap) } }
    else s.onStore fun x => { x with state := .failed, fail := true }
  | _ => s

/-- The rest of a RESTART's wait passes and it takes effect (12 R184, R185; log 7). -/
def restartWaitEnds (s : State) : State :=
  match restartLeft s with
  | some n => elapse true n s
  | none => s

/-- POWER_UP (01 R7). -/
def execPowerUp (s : State) : Outcome := .next (powerUp s)

/-- RESET_ASSERT (01 R9). -/
def execResetAssert (sentAtD sentAtM : Nat) (s : State) : Outcome := .next (assertReset sentAtD sentAtM s)

/-- RESET_RELEASE (01 R9): the part is in STARTING, where the assertion has left it, and the load begins (12 R183). -/
def execResetRelease (s : State) : Outcome := .next { s with resetLine := false }

/-- STORE_LOAD_COMPLETE (12 R183). -/
def execStoreLoadComplete (s : State) : Outcome := .next (loadComplete s)

/-- CERT_ASSERT (09 R157): freeze comes into effect if the freeze request flag is set. -/
def execCertAssert (s : State) : Outcome := .next (withFreezeEntry s { s with cert := true })

/-- CERT_RELEASE (09 R159): freeze ends, the freeze request flag is kept. -/
def execCertRelease (s : State) : Outcome := .next { s with cert := false }

/-- SAVE_COMPLETE (12 R182). -/
def execSaveComplete (verified : Bool) (s : State) : Outcome := .next (saveDone verified s)

/-- RESTART_EFFECT (12 R185). -/
def execRestartEffect (s : State) : Outcome := .next (restartWaitEnds s)

/-- POWER_DOWN (12 R182). -/
def execPowerDown (s : State) : Outcome := .next (powerDown s)

end Sys2Proof.Machine
end

