-- ==== Sys2Proof/Machine/ExecLine.lean ====
section
/-! DEFINITION. The meanings of the commands for frames in passage: PASS_HEADER, FRAME_CUT_SHORT, FIRST_OUT_FIELD, OUT_FIELD_PASSAGE,
IN_FIELD_PASSAGE, REPORT_FIELD_ARRIVAL, SERVICE_AREA_RETURN, OUTBOUND_CHECK_WORD, SERVICE_COMPLETE, RETURN_CHECK_WORD. -/

namespace Sys2Proof.Machine

/-- A frame's header arrives at a port of a part that has power (01 R1, R6). -/
def headerArrives (port : Port) (frame : LinkFrame) (s : State) : State :=
  if s.powered then
    match port with
    | .m => outHeader frame s
    | .d => returnHeader frame s
  else s

/-- PASS_HEADER (01 R6). -/
def execPassHeader (port : Port) (frame : LinkFrame) (s : State) : Outcome := .next (headerArrives port frame s)

/-- FRAME_CUT_SHORT (01 R4). -/
def execFrameCutShort (port : Port) (s : State) : Outcome := .next (cutShort port s)

/-- FIRST_OUT_FIELD (02 R29). -/
def execFirstOutField (s : State) : Outcome := .next (latchFirst s)

/-- OUT_FIELD_PASSAGE (02 R31). -/
def execOutFieldPassage (roller : Fin 4) (s : State) : Outcome := .next (passOutField roller s)

/-- IN_FIELD_PASSAGE (02 R25). -/
def execInFieldPassage (roller : Fin 4) (s : State) : Outcome := .next (passInField roller s)

/-- REPORT_FIELD_ARRIVAL (02 R36). -/
def execReportFieldArrival (s : State) : Outcome := .next (passReport s)

/-- SERVICE_AREA_RETURN (10 R165). -/
def execServiceAreaReturn (s : State) : Outcome := .next (passService s)

/-- OUTBOUND_CHECK_WORD (10 R162). -/
def execOutboundCheckWord (s : State) : Outcome := .next (closeOut s)

/-- SERVICE_COMPLETE (10 R164). -/
def execServiceComplete (which : Nat) (s : State) : Outcome := .next (completeService which s)

/-- RETURN_CHECK_WORD (01 R14). -/
def execReturnCheckWord (elapsed : Nat) (order : List (Fin 4)) (s : State) : Outcome := .next (closeReturn elapsed order s)

end Sys2Proof.Machine
end

