-- ==== Sys2Proof/Machine/ExecEvents.lean ====
section
/-! DEFINITION. The meanings of the commands for internal events (log 5): STAGE_TIMER_EXPIRY, LOAD_BLEND_END, SETTLE_TIMER_EXPIRY,
TRACK_BLEND_IN_END, TRACK_BLEND_OUT_END, TRACE_RECORD_APPEND, LINE_SILENCE_EXPIRY. Each happens in ACTIVE only. -/

namespace Sys2Proof.Machine

/-- The part is in ACTIVE. -/
def inRun (s : State) : Bool := decide (s.lpu.opState = .active)

/-- A running stage timer expires (06 R108) and the hard fault event reaches the roller's group (03 R54, 07 R126). -/
def stageExpires (i : Fin 4) (s : State) : State :=
  if inRun s && (s.rollers.get i).seq.timer.isSome then hardFaultEvent i (s.onRoller i timeOut) else s

/-- The load blend of a group ends: its context is discarded (04 R64). -/
def loadBlendEnds (g : Fin 4) (s : State) : State :=
  if inRun s then s.onGroup g fun x => { x with loadBlend := none } else s

/-- A running settle timer of a STOPPING group expires (07 R125). -/
def settleExpires (g : Fin 4) (s : State) : State :=
  if inRun s && decide ((s.groups.get g).state = .stopping) && (s.groups.get g).settle.isSome then settleExpiry g s else s

/-- The blend position of a tracking group reaches N_t in IN: the direction becomes STEADY (05 R85). -/
def trackBlendIn (g : Fin 4) (s : State) : State :=
  if inRun s && decide ((s.groups.get g).state = .track) && decide ((s.groups.get g).dir = .inward) then
    s.onGroup g fun x => { x with blendPos := (s.tables.active.groups.get g).trackBlend, dir := .steady }
  else s

/-- The blend position of a tracking group reaches 0 in OUT: tracking ends (05 R85). -/
def trackBlendOut (g : Fin 4) (s : State) : State :=
  if inRun s && decide ((s.groups.get g).state = .track) && decide ((s.groups.get g).dir = .outward) then endTrack g s else s

/-- The cycle whose count brings the decimation counter to d, if E's cycle has not been counted yet (11 R174, R178; log 5). -/
def traceDue (s : State) : Option Nat :=
  match s.lpu.ext with
  | some e =>
    if inRun s && s.trace.enable && decide (s.trace.lastCounted ≠ some e) && reachesNext s.trace then some e else none
  | none => none

/-- The decimation counter reaches d: it becomes 0 and a record is appended (11 R174, R176). -/
def traceAppends (s : State) : State :=
  match traceDue s with
  | some e => traceReaches e s
  | none => s

/-- The rest of the silence time passes and the line silence timer expires (01 R18; log 7). -/
def silenceEnds (s : State) : State :=
  match silenceLeft s with
  | some n => elapse true n s
  | none => s

/-- STAGE_TIMER_EXPIRY (06 R108). -/
def execStageTimerExpiry (roller : Fin 4) (s : State) : Outcome := .next (stageExpires roller s)

/-- LOAD_BLEND_END (04 R64). -/
def execLoadBlendEnd (group : Fin 4) (s : State) : Outcome := .next (loadBlendEnds group s)

/-- SETTLE_TIMER_EXPIRY (07 R125). -/
def execSettleTimerExpiry (group : Fin 4) (s : State) : Outcome := .next (settleExpires group s)

/-- TRACK_BLEND_IN_END (05 R85). -/
def execTrackBlendInEnd (group : Fin 4) (s : State) : Outcome := .next (trackBlendIn group s)

/-- TRACK_BLEND_OUT_END (05 R85). -/
def execTrackBlendOutEnd (group : Fin 4) (s : State) : Outcome := .next (trackBlendOut group s)

/-- TRACE_RECORD_APPEND (11 R174). -/
def execTraceRecordAppend (s : State) : Outcome := .next (traceAppends s)

/-- LINE_SILENCE_EXPIRY (01 R18). -/
def execLineSilenceExpiry (s : State) : Outcome := .next (silenceEnds s)

end Sys2Proof.Machine
end

