-- ==== Sys2Proof/Machine/ExecRequests.lean ====
section
/-! DEFINITION. The meanings of the service requests: each is served by its owner (Machine/Requests.lean) at the moment of the command, and its
reply goes to the reply-queue entry that waits for it (log 9). The action of GROUP, the setting of SET_LIVE and the mode of LOCK that a
row names are the codes of 13 Section 13.4. -/

namespace Sys2Proof.Machine

/-- IDENTIFY (10 R167). -/
def execIdentify (s : State) : Outcome := .next (serveRow .identify s)

/-- READ_STATUS (10 R168). -/
def execReadStatus (s : State) : Outcome := .next (serveRow .readStatus s)

/-- CLEAR_FLAGS (10 R170). -/
def execClearFlags (mask : BitVec 64) (s : State) : Outcome := .next (serveRow (.clearFlags mask) s)

/-- START (01 R10). -/
def execStart (s : State) : Outcome := .next (serveRow .start s)

/-- HALT (01 R11). -/
def execHalt (s : State) : Outcome := .next (serveRow .halt s)

/-- GROUP:ENGAGE (07 R116). -/
def execGroupEngage (group : Byte) (s : State) : Outcome := .next (serveRow (.group group 1) s)

/-- GROUP:RUN (07 R118). -/
def execGroupRun (group : Byte) (s : State) : Outcome := .next (serveRow (.group group 2) s)

/-- GROUP:TRACK (07 R119). -/
def execGroupTrack (group : Byte) (s : State) : Outcome := .next (serveRow (.group group 3) s)

/-- GROUP:UNTRACK (07 R119). -/
def execGroupUntrack (group : Byte) (s : State) : Outcome := .next (serveRow (.group group 4) s)

/-- GROUP:STOP (07 R120). -/
def execGroupStop (group : Byte) (s : State) : Outcome := .next (serveRow (.group group 5) s)

/-- GROUP:DISENGAGE (07 R121). -/
def execGroupDisengage (group : Byte) (s : State) : Outcome := .next (serveRow (.group group 6) s)

/-- GROUP:CLEAR (07 R122). -/
def execGroupClear (group : Byte) (s : State) : Outcome := .next (serveRow (.group group 7) s)

/-- READ_ENTRY (08 R138). -/
def execReadEntry (table index copy : Byte) (s : State) : Outcome := .next (serveRow (.readEntry table index copy) s)

/-- WRITE_ENTRY (08 R139). -/
def execWriteEntry (table index : Byte) (entry : List Byte) (s : State) : Outcome := .next (serveRow (.writeEntry table index entry) s)

/-- SET_LIVE on (08 R142). -/
def execSetLiveOn (table : Byte) (s : State) : Outcome := .next (serveRow (.setLive table 1) s)

/-- SET_LIVE off (08 R142). -/
def execSetLiveOff (table : Byte) (s : State) : Outcome := .next (serveRow (.setLive table 0) s)

/-- COMMIT (08 R143). -/
def execCommit (mask presence : Byte) (effective : BitVec 64) (blend : BitVec 16) (s : State) : Outcome := .next (serveRow (.commit mask presence effective blend) s)

/-- CANCEL (08 R146). -/
def execCancel (mask : Byte) (s : State) : Outcome := .next (serveRow (.cancel mask) s)

/-- LOCK in mode LOCK (09 R154). -/
def execLock (mask : Byte) (s : State) : Outcome := .next (serveRow (.lock mask 0) s)

/-- LOCK in mode UNLOCK (09 R154). -/
def execUnlock (mask : Byte) (s : State) : Outcome := .next (serveRow (.lock mask 1) s)

/-- LOCK in mode LOCK_DOWN (09 R154). -/
def execLockDown (mask : Byte) (s : State) : Outcome := .next (serveRow (.lock mask 2) s)

/-- FREEZE (09 R156). -/
def execFreeze (s : State) : Outcome := .next (serveRow .freeze s)

/-- THAW (09 R156). -/
def execThaw (s : State) : Outcome := .next (serveRow .thaw s)

/-- TRACE_SET (11 R173). -/
def execTraceSet (group decimation enable : Byte) (s : State) : Outcome := .next (serveRow (.traceSet group decimation enable) s)

/-- READ_TRACE (11 R177). -/
def execReadTrace (s : State) : Outcome := .next (serveRow .readTrace s)

/-- STORE_SAVE (12 R181). -/
def execStoreSave (s : State) : Outcome := .next (serveRow .storeSave s)

/-- RESTART (12 R184). -/
def execRestart (s : State) : Outcome := .next (serveRow .restart s)

end Sys2Proof.Machine
end

