-- ==== Sys2Proof/Machine/Dispatch.lean ====
section
/-! DEFINITION. The dispatch of a command to its meaning. -/

namespace Sys2Proof.Machine

def exec (i : Instr) (s : State) : Host.Outcome State Fault Refusal :=
  match i with
  | .powerUp => Sys2Proof.Machine.execPowerUp s
  | .resetAssert sentAtD sentAtM => Sys2Proof.Machine.execResetAssert sentAtD sentAtM s
  | .resetRelease => Sys2Proof.Machine.execResetRelease s
  | .storeLoadComplete => Sys2Proof.Machine.execStoreLoadComplete s
  | .passHeader port frame => Sys2Proof.Machine.execPassHeader port frame s
  | .frameCutShort port => Sys2Proof.Machine.execFrameCutShort port s
  | .firstOutField => Sys2Proof.Machine.execFirstOutField s
  | .outFieldPassage roller => Sys2Proof.Machine.execOutFieldPassage roller s
  | .inFieldPassage roller => Sys2Proof.Machine.execInFieldPassage roller s
  | .reportFieldArrival => Sys2Proof.Machine.execReportFieldArrival s
  | .serviceAreaReturn => Sys2Proof.Machine.execServiceAreaReturn s
  | .outboundCheckWord => Sys2Proof.Machine.execOutboundCheckWord s
  | .serviceComplete which => Sys2Proof.Machine.execServiceComplete which s
  | .returnCheckWord elapsed order => Sys2Proof.Machine.execReturnCheckWord elapsed order s
  | .stageTimerExpiry roller => Sys2Proof.Machine.execStageTimerExpiry roller s
  | .loadBlendEnd group => Sys2Proof.Machine.execLoadBlendEnd group s
  | .settleTimerExpiry group => Sys2Proof.Machine.execSettleTimerExpiry group s
  | .trackBlendInEnd group => Sys2Proof.Machine.execTrackBlendInEnd group s
  | .trackBlendOutEnd group => Sys2Proof.Machine.execTrackBlendOutEnd group s
  | .traceRecordAppend => Sys2Proof.Machine.execTraceRecordAppend s
  | .lineSilenceExpiry => Sys2Proof.Machine.execLineSilenceExpiry s
  | .certAssert => Sys2Proof.Machine.execCertAssert s
  | .certRelease => Sys2Proof.Machine.execCertRelease s
  | .saveComplete verified => Sys2Proof.Machine.execSaveComplete verified s
  | .restartEffect => Sys2Proof.Machine.execRestartEffect s
  | .identify => Sys2Proof.Machine.execIdentify s
  | .readStatus => Sys2Proof.Machine.execReadStatus s
  | .clearFlags mask => Sys2Proof.Machine.execClearFlags mask s
  | .start => Sys2Proof.Machine.execStart s
  | .halt => Sys2Proof.Machine.execHalt s
  | .groupEngage group => Sys2Proof.Machine.execGroupEngage group s
  | .groupRun group => Sys2Proof.Machine.execGroupRun group s
  | .groupTrack group => Sys2Proof.Machine.execGroupTrack group s
  | .groupUntrack group => Sys2Proof.Machine.execGroupUntrack group s
  | .groupStop group => Sys2Proof.Machine.execGroupStop group s
  | .groupDisengage group => Sys2Proof.Machine.execGroupDisengage group s
  | .groupClear group => Sys2Proof.Machine.execGroupClear group s
  | .readEntry table index copy => Sys2Proof.Machine.execReadEntry table index copy s
  | .writeEntry table index entry => Sys2Proof.Machine.execWriteEntry table index entry s
  | .setLiveOn table => Sys2Proof.Machine.execSetLiveOn table s
  | .setLiveOff table => Sys2Proof.Machine.execSetLiveOff table s
  | .commit mask presence effective blend => Sys2Proof.Machine.execCommit mask presence effective blend s
  | .cancel mask => Sys2Proof.Machine.execCancel mask s
  | .lock mask => Sys2Proof.Machine.execLock mask s
  | .unlock mask => Sys2Proof.Machine.execUnlock mask s
  | .lockDown mask => Sys2Proof.Machine.execLockDown mask s
  | .freeze => Sys2Proof.Machine.execFreeze s
  | .thaw => Sys2Proof.Machine.execThaw s
  | .traceSet group decimation enable => Sys2Proof.Machine.execTraceSet group decimation enable s
  | .readTrace => Sys2Proof.Machine.execReadTrace s
  | .storeSave => Sys2Proof.Machine.execStoreSave s
  | .restart => Sys2Proof.Machine.execRestart s
  | .powerDown => Sys2Proof.Machine.execPowerDown s

end Sys2Proof.Machine
end

