-- ==== Sys2Proof/Safety.lean ====
section
/-! DEFINITION. The terms in which claims speak of safe behaviour: what a request leaves alone, and the properties that every step keeps. -/

namespace Sys2Proof.Machine

/-- A reply-queue entry without its owner's answer. -/
def ReplyEntry.bare (e : ReplyEntry) : ReplyEntry := { e with answer := none }

/-- The Service Responder is the same but for answers its owners have given and the last reply. -/
def svcKept (x y : Responder) : Prop :=
  y.queue.map ReplyEntry.bare = x.queue.map ReplyEntry.bare ∧ y.orphans.map ReplyEntry.bare = x.orphans.map ReplyEntry.bare
    ∧ y.nextId = x.nextId ∧ y.unanswered = x.unanswered

/-- t is the state u after a reply was given: nothing but the Service Responder differs, and in it only the answers and the last reply. -/
def Replied (rep : Reply) (u t : State) : Prop :=
  t = { u with svc := t.svc } ∧ svcKept u.svc t.svc ∧ t.svc.lastReply = some rep

/-- Two states differ at most in rollers and groups. -/
def OnlyMotion (s t : State) : Prop := t = { s with rollers := t.rollers, groups := t.groups }

/-- Every part of the state that a RESET line asserted holds has its RESET-line value (01 R9, R22; 02 R37; 03 R56; 04 R76; 05 R95;
06 R111; 07 R131; 08 R152; 09 R155; 10 R172; 11 R179; 12 R185), and no pass is one the part works on. -/
def ResetHeld (s : State) : Prop :=
  s.lpu = Lpu.initial LineFlags.none 0 0 ∧ s.slot = SlotEngine.initial ∧ s.rollers = Quad.all (Roller.initial RollerFlags.none)
    ∧ s.groups = Quad.all (Group.initial GroupFlags.none) ∧ s.tables.due = LiveDue.none ∧ s.tables.changes = []
    ∧ s.tables.freezeFlag = false ∧ s.tables.flags = TableFlags.none
    ∧ (∀ t, (s.tables.ctl.get t).live = false ∧ (s.tables.ctl.get t).pinned = false)
    ∧ s.svc.queue = [] ∧ s.svc.orphans = [] ∧ s.svc.unanswered = none ∧ s.trace = TraceBuffer.initial 0 false
    ∧ s.store.state = .idle ∧ s.store.fail = false ∧ s.store.invalid = false ∧ s.store.restart = none
    ∧ (∀ p, s.outPass = some p → p.followed = false) ∧ (∀ p, s.retPass = some p → p.followed = false)

/-- While E is set, E modulo 65,536 equals L; E and L are set together (01 R16). -/
def CycleOk (s : State) : Prop := s.lpu.last = s.lpu.ext.map fun e => BitVec.ofNat 16 e

/-- The reply queue holds at most 4 entries (10 R164). -/
def QueueOk (s : State) : Prop := s.svc.queue.length ≤ 4

/-- The fraction of every roller's distance lies in 0..65,535 (03 R47). -/
def FractionOk (s : State) : Prop := ∀ i, (s.rollers.get i).chan.fraction < 65536

/-- A setpoint set that carries RELEASE for a roller carries ENABLE with it (05 R92). -/
def releaseWithEnable (x : SetpointSet) : Prop := ∀ i, (x.get i).release = true → (x.get i).enable = true

/-- Every set the part holds, the current one and the latched one, carries RELEASE only with ENABLE (05 R92, 02 R31). -/
def CommandsOk (s : State) : Prop :=
  releaseWithEnable s.slot.current ∧ ∀ p x, s.outPass = some p → p.latched = some x → releaseWithEnable x

/-- The records of a list stand in non-decreasing due cycle (08 R144). -/
def dueSorted (l : List ChangeRecord) : Prop := l.Pairwise fun a b => dueNotLater a.due b.due = true

/-- No table is named by two records of a list (08 R144). -/
def masksApart (l : List ChangeRecord) : Prop := l.Pairwise fun a b => ∀ t, ¬ (maskNames a.mask t = true ∧ maskNames b.mask t = true)

/-- The Pending Change List holds at most 8 records in non-decreasing due cycle, no table is named by two, and the pinned tables are
those a record names (08 R144, R145). -/
def ChangesOk (s : State) : Prop :=
  s.tables.changes.length ≤ 8 ∧ dueSorted s.tables.changes ∧ masksApart s.tables.changes
    ∧ ∀ t, (s.tables.ctl.get t).pinned = s.tables.changes.any fun r => maskNames r.mask t

/-- While freeze is in effect the list is empty, no live-due mark is set and no table is LIVE (09 R157, R158). -/
def FreezeOk (s : State) : Prop :=
  inFreeze s = true → s.tables.changes = [] ∧ s.tables.due = LiveDue.none ∧ ∀ t, (s.tables.ctl.get t).live = false

/-- The records held are in strictly ascending cycle (11 R176). -/
def ascending (l : List TraceRecord) : Prop := l.Pairwise fun a b => a.cycle < b.cycle

/-- The Trace Buffer holds at most 512 records in strictly ascending cycle, as many as its pointers tell, and in a run none of a cycle
above E (11 R176). -/
def TraceOk (s : State) : Prop :=
  s.trace.records.length ≤ 512 ∧ s.trace.records.length = s.trace.held ∧ s.trace.write.index < 512 ∧ s.trace.read.index < 512
    ∧ (s.trace.write.wrap = s.trace.read.wrap → s.trace.read.index ≤ s.trace.write.index)
    ∧ (s.trace.write.wrap ≠ s.trace.read.wrap → s.trace.write.index ≤ s.trace.read.index)
    ∧ ascending s.trace.records
    ∧ (s.lpu.opState = .active → s.lpu.ext = none → s.trace.records = [])
    ∧ (∀ e, s.lpu.ext = some e → ∀ r ∈ s.trace.records, r.cycle < e ∨ (r.cycle = e ∧ s.trace.lastCounted = some e))

/-- A pass forwards a frame of the same length with the same header, and a pass that is not written forwards the bytes as they arrived
(01 R1, R3). -/
def PassOk (p : Pass) : Prop :=
  p.tx.length = p.rx.length ∧ p.tx.take 5 = p.rx.take 5 ∧ (p.written = false → p.tx = p.rx)

/-- Both passes in progress forward as they must. -/
def PassesOk (s : State) : Prop := (∀ p, s.outPass = some p → PassOk p) ∧ ∀ p, s.retPass = some p → PassOk p

/-- The number in the n bytes at an offset of a layout, and the signed number there (13, Byte order). -/
def numAt (bs : List Byte) (off n : Nat) : Nat := fromLE (sliceAt bs off n)

/-- The signed number in the n bytes at an offset of a layout. -/
def intAt (bs : List Byte) (off n : Nat) : Int := fromLEInt (sliceAt bs off n)

/-- The items a report image holds for cycle e, each as the state stands (02 R34), with the conditions of its summary indications (02
R35). -/
def ImageShows (e : Nat) (s : State) (im : ReportImage) : Prop :=
  (im.freeze = true ↔ s.lpu.opState ≠ .starting ∧ s.cert = true ∧ s.tables.freezeFlag = true)
    ∧ im.pendingCount = s.tables.changes.length ∧ im.cycle = e
    ∧ (∀ g, im.groups.get g =
        { state := (s.groups.get g).state, cause := (s.groups.get g).cause, dir := (s.groups.get g).dir, windDown := false })
    ∧ (∀ g, im.speeds.get g = (s.groups.get g).speed)
    ∧ (im.summary.line = true ↔ s.lpu.flags ≠ LineFlags.none)
    ∧ (im.summary.roller = true ↔ ∃ i, (s.rollers.get i).chan.flags ≠ RollerFlags.none)
    ∧ (im.summary.latch = true ↔ ∃ i, (s.rollers.get i).chan.latch ≠ Latch.clear)
    ∧ (im.summary.group = true ↔ ∃ g, (s.groups.get g).flags ≠ GroupFlags.none)
    ∧ (im.summary.table = true ↔ s.tables.flags ≠ TableFlags.none)
    ∧ (im.summary.trace = true ↔ s.trace.overflow = true)
    ∧ (im.summary.store = true ↔ s.store.fail = true ∨ s.store.invalid = true)

/-- The items a trace record of the selected group holds for cycle e (11 R175; log 15): the group items as its step handed them on, the
blend position and direction after the move, the member mask, and for each roller v_i, its setpoint in the published set and its kept error
in µm, limited to ±32,767, 0 for none. -/
def RecordShows (e : Nat) (s : State) (r : TraceRecord) : Prop :=
  let x := s.groups.get s.trace.group
  r.cycle = e ∧ r.group = { state := x.handed.state, cause := x.handed.cause, dir := x.dir, windDown := false } ∧ r.blendPos = x.blendPos
    ∧ r.speed = x.handed.speed ∧ r.force = x.handed.force ∧ r.load = x.handed.load
    ∧ (∀ i, r.members.get i = true ↔ (s.tables.active.rollers.get i).group = some s.trace.group.val)
    ∧ ∀ i, (r.rollers.get i).speed = (s.rollers.get i).chan.speed ∧ (r.rollers.get i).setpoint = (s.slot.current.get i).setpoint
        ∧ ((s.rollers.get i).coup.error = none → (r.rollers.get i).error = 0)
        ∧ ∀ x, (s.rollers.get i).coup.error = some x → (r.rollers.get i).error = max (-32767) (min (roundHalfAway x 1000) 32767)

/-- The kind of a row that is a service request (13 Section 13.4). -/
def requestKind (c : Instr) : Option Byte :=
  match c with
  | .identify => some 1
  | .readStatus => some 2
  | .clearFlags _ => some 3
  | .start => some 4
  | .halt => some 5
  | .groupEngage _ | .groupRun _ | .groupTrack _ | .groupUntrack _ | .groupStop _ | .groupDisengage _ | .groupClear _ => some 6
  | .readEntry _ _ _ => some 7
  | .writeEntry _ _ _ => some 8
  | .setLiveOn _ | .setLiveOff _ => some 9
  | .commit _ _ _ _ => some 10
  | .cancel _ => some 11
  | .lock _ | .unlock _ | .lockDown _ => some 12
  | .freeze => some 13
  | .thaw => some 14
  | .traceSet _ _ _ => some 15
  | .readTrace => some 16
  | .storeSave => some 17
  | .restart => some 18
  | .powerUp | .resetAssert _ _ | .resetRelease | .storeLoadComplete | .passHeader _ _ | .frameCutShort _ | .firstOutField
  | .outFieldPassage _ | .inFieldPassage _ | .reportFieldArrival | .serviceAreaReturn | .outboundCheckWord | .serviceComplete _
  | .returnCheckWord _ _ | .stageTimerExpiry _ | .loadBlendEnd _ | .settleTimerExpiry _ | .trackBlendInEnd _ | .trackBlendOutEnd _
  | .traceRecordAppend | .lineSilenceExpiry | .certAssert | .certRelease | .saveComplete _ | .restartEffect | .powerDown => none

/-- An entry holds the request of a row: its kind, and a payload that spells the row's operands (13 Section 13.4). -/
def Asks (c : Instr) (e : ReplyEntry) : Prop :=
  let b := fun n => e.payload.getD n 0
  requestKind c = some e.kind ∧
  match c with
  | .clearFlags m => m.toNat = numAt e.payload 0 8
  | .groupEngage g => b 0 = g ∧ b 1 = 1
  | .groupRun g => b 0 = g ∧ b 1 = 2
  | .groupTrack g => b 0 = g ∧ b 1 = 3
  | .groupUntrack g => b 0 = g ∧ b 1 = 4
  | .groupStop g => b 0 = g ∧ b 1 = 5
  | .groupDisengage g => b 0 = g ∧ b 1 = 6
  | .groupClear g => b 0 = g ∧ b 1 = 7
  | .readEntry t i k => b 0 = t ∧ b 1 = i ∧ b 2 = k
  | .writeEntry t i bs => b 0 = t ∧ b 1 = i ∧ bs = sliceAt e.payload 2 ([12, 5, 30, 11, 10].getD t.toNat 0)
  | .setLiveOn t => b 0 = t ∧ b 1 = 1
  | .setLiveOff t => b 0 = t ∧ b 1 = 0
  | .commit m pr eff bl => b 0 = m ∧ b 1 = pr ∧ eff.toNat = numAt e.payload 2 8 ∧ bl.toNat = numAt e.payload 10 2
  | .cancel m => b 0 = m
  | .lock m => b 0 = m ∧ b 1 = 0
  | .unlock m => b 0 = m ∧ b 1 = 1
  | .lockDown m => b 0 = m ∧ b 1 = 2
  | .traceSet g d en => b 0 = g ∧ b 1 = d ∧ b 2 = en
  | .identify | .readStatus | .start | .halt | .freeze | .thaw | .readTrace | .storeSave | .restart => True
  | .powerUp | .resetAssert _ _ | .resetRelease | .storeLoadComplete | .passHeader _ _ | .frameCutShort _ | .firstOutField
  | .outFieldPassage _ | .inFieldPassage _ | .reportFieldArrival | .serviceAreaReturn | .outboundCheckWord | .serviceComplete _
  | .returnCheckWord _ _ | .stageTimerExpiry _ | .loadBlendEnd _ | .settleTimerExpiry _ | .trackBlendInEnd _ | .trackBlendOutEnd _
  | .traceRecordAppend | .lineSilenceExpiry | .certAssert | .certRelease | .saveComplete _ | .restartEffect | .powerDown => False

/-- The fields of an entry fit the widths of its encoding (13 Section 13.5), and no number is one that stands for an absent value
(13 R186). -/
def cellFits (e : CellEntry) : Prop :=
  e.station < 256 ∧ e.cycleUs < 65536 ∧ e.toleranceUs < 65536 ∧ e.missLimit < 256 ∧ e.standstill < 65536 ∧ e.slotAreaLen < 65536
    ∧ ∀ r, e.report = some r → r < 65535

/-- A SLOTS entry fits its encoding. -/
def slotsFits : SlotsEntry → Prop
  | .absent => True
  | .present o i => o < 65536 ∧ i < 65536

/-- A ROLLERS entry fits its encoding. -/
def rollersFits (e : RollersEntry) : Prop :=
  e.scale < 2 ^ 32 ∧ -128 ≤ e.direction ∧ e.direction < 128 ∧ e.window < 256 ∧ e.jumpLimit < 2 ^ 32 ∧ e.forceLimit < 2 ^ 32
    ∧ e.sampleMissLimit < 256 ∧ e.vmax < 2 ^ 32 ∧ e.aMax < 65536 ∧ e.dStop < 65536 ∧ e.stageTimeout < 65536
    ∧ (∀ g, e.group = some g → g < 255) ∧ -(2 ^ 31) ≤ e.trim ∧ e.trim < 2 ^ 31

/-- A GROUPS entry fits its encoding. -/
def groupsFits (e : GroupsEntry) : Prop :=
  e.mass < 65536 ∧ e.loadSet < 256 ∧ e.kp < 65536 ∧ e.corrMax < 65536 ∧ e.slipLimit < 65536 ∧ e.trackBlend < 65536

/-- A LOADS entry fits its encoding. -/
def loadsFits (e : LoadsEntry) : Prop := e.a < 65536 ∧ e.b < 2 ^ 32 ∧ e.c < 65536 ∧ e.vCreep < 65536

/-- An entry fits its encoding. -/
def entryFits : Entry → Prop
  | .cell e => cellFits e
  | .slots e => slotsFits e
  | .rollers e => rollersFits e
  | .groups e => groupsFits e
  | .loads e => loadsFits e

/-- Every entry of a copy fits its encoding. -/
def tablesFit (t : Tables) : Prop :=
  cellFits t.cell ∧ (∀ i, slotsFits (t.slots.get i)) ∧ (∀ i, rollersFits (t.rollers.get i)) ∧ (∀ i, groupsFits (t.groups.get i))
    ∧ ∀ i, loadsFits (t.loads.get i)

/-- Every field of an entry lies in its range (08 R133 to R135). -/
def entryInRange : Entry → Prop
  | .cell e => 1 ≤ e.station ∧ e.station ≤ 254
      ∧ (e.cycleUs = 250 ∨ e.cycleUs = 500 ∨ e.cycleUs = 1000 ∨ e.cycleUs = 2000 ∨ e.cycleUs = 4000)
      ∧ 10 ≤ e.toleranceUs ∧ e.toleranceUs ≤ e.cycleUs / 4 ∧ e.missLimit ≤ 7 ∧ 1 ≤ e.standstill ∧ e.standstill ≤ 500
      ∧ 16 ≤ e.slotAreaLen ∧ e.slotAreaLen ≤ 1024 ∧ ∀ r, e.report = some r → r ≤ 1000
  | .slots .absent => True
  | .slots (.present o i) => o ≤ 1023 ∧ i ≤ 1023
  | .rollers e => 1 ≤ e.scale ∧ e.scale ≤ 4294967295 ∧ (e.direction = 1 ∨ e.direction = -1) ∧ 1 ≤ e.window ∧ e.window ≤ 16
      ∧ 1 ≤ e.jumpLimit ∧ e.jumpLimit ≤ 1073741824 ∧ 1 ≤ e.forceLimit ∧ e.forceLimit ≤ 300000 ∧ e.sampleMissLimit ≤ 7
      ∧ 1 ≤ e.vmax ∧ e.vmax ≤ 70000 ∧ 100 ≤ e.aMax ∧ e.aMax ≤ 30000 ∧ e.aMax ≤ e.dStop ∧ e.dStop ≤ 50000
      ∧ 10 ≤ e.stageTimeout ∧ e.stageTimeout ≤ 65535 ∧ (∀ g, e.group = some g → g ≤ 3) ∧ -50000 ≤ e.trim ∧ e.trim ≤ 50000
  | .groups e => 400 ≤ e.mass ∧ e.mass ≤ 9999 ∧ e.loadSet ≤ 7 ∧ e.kp ≤ 20000 ∧ e.corrMax ≤ 5000 ∧ 1 ≤ e.slipLimit
      ∧ e.slipLimit ≤ 2000 ∧ 1 ≤ e.trackBlend ∧ e.trackBlend ≤ 4096
  | .loads e => e.a ≤ 50000 ∧ e.b ≤ 100000 ∧ e.c ≤ 50000 ∧ 1 ≤ e.vCreep ∧ e.vCreep ≤ 2000

/-- Membership (08 R136): a roller names a group exactly where it is PRESENT. -/
def membersPlaced (t : Tables) : Prop := ∀ i, (t.rollers.get i).group = none ↔ t.slots.get i = .absent

/-- A field of the slot area that an image places: the report field, or a roller's out-field (false) or in-field (true), as its offset
and its length (13 Sections 13.1 and 13.3). -/
def fieldOf (t : Tables) : Option (Fin 4 × Bool) → Option (Nat × Nat)
  | none => t.cell.report.map fun r => (r, 24)
  | some (i, inField) =>
    match t.slots.get i with
    | .absent => none
    | .present o n => some (if inField then (n, 10) else (o, 6))

/-- Placement (08 R136): every placed field ends within the slot area, and no two share a byte. -/
def fieldsPlaced (t : Tables) : Prop :=
  (∀ f x, fieldOf t f = some x → x.1 + x.2 ≤ t.cell.slotAreaLen)
    ∧ ∀ f h x y, f ≠ h → fieldOf t f = some x → fieldOf t h = some y →
        ∀ n, ¬ ((x.1 ≤ n ∧ n < x.1 + x.2) ∧ y.1 ≤ n ∧ n < y.1 + y.2)

end Sys2Proof.Machine
end

