-- ==== Sys2Proof/Certificates/Slice0/Obligations.lean ====
section
/-! DEFINITION. The statements for the provers. -/

open Sys2Proof Sys2Proof.Machine

/-! ## Steps, reset events and pins -/

/-- A step takes the command at the front of the queue and runs it on the state with the rest of the queue. On an empty queue one
microsecond passes (the model's choice, logs 3 and 7): the line silence timer, the arrival timer, the wait of a RESTART and the age of every
request taken have 1 added; where the silence timer so reaches (miss_limit + 2) × cycle_us (01 R18) it stops, RING_LOST is set, a resync
falls due and the line fault event is raised. A RESTART whose 10 ms end is in RestartJudgedAndTakesEffect. -/
def Obligations.StepRunsFrontCommand : Prop :=
  (∀ (c : Instr) (rest : List Instr) (s : State), step { s with pending := c :: rest } = exec c { s with pending := rest })
    ∧ ∀ s : State, s.pending = [] → (∀ w, s.store.restart = some w → w.waited + 1 < 10000) →
      let older := fun (e : ReplyEntry) => { e with age := e.age + 1 }
      let later : State := { s with
        lpu := { s.lpu with silenceTimer := s.lpu.silenceTimer.map (· + 1), arrivalTimer := s.lpu.arrivalTimer.map (· + 1) }
        store := { s.store with restart := s.store.restart.map fun w => { w with waited := w.waited + 1 } }
        svc := { s.svc with queue := s.svc.queue.map older, orphans := s.svc.orphans.map older } }
      let silent := s.lpu.opState = .active ∧ s.lpu.ext ≠ none
        ∧ ∃ n, s.lpu.silenceTimer = some n ∧ (s.tables.active.cell.missLimit + 2) * s.tables.active.cell.cycleUs ≤ n + 1
      (¬ silent → step s = .next later)
        ∧ (silent → step s = .next (lineFault { later with lpu := { later.lpu with
            silenceTimer := none, resyncDue := true, flags := { s.lpu.flags with ringLost := true } } }))

/-- Every command answers a next state and leaves the queue of waiting commands as it is: nothing stops the part (00, How behaviour is
stated). -/
def Obligations.EveryCommandCompletes : Prop :=
  ∀ (c : Instr) (s : State), ∃ t, exec c s = .next t ∧ t.pending = s.pending

/-- The state right after power-up holds the power-up values of every chapter's reset table. -/
def Obligations.ResetHoldsPowerUpValues : Prop :=
  let s := State.reset
  s.lpu = { opState := .starting, ext := none, last := none, resyncDue := false, silenceTimer := none, arrivalTimer := none,
            flags := ⟨false, false, false, false, false, false, false, false⟩, checkErrCount := 0, missedCount := 0 }
    ∧ s.slot = { positions := none, buffers := Quad.all none, current := Quad.all ⟨false, false, 0⟩, image := none }
    ∧ (∀ i, (s.rollers.get i).chan
        = { baseline := none, lastStamp := none, lastStatus := none, held := 0, distance := 0, fraction := 0, window := [], speed := 0,
            force := 0, latch := ⟨false, false, false, false⟩, flags := ⟨false, false, false, false, false⟩ })
    ∧ (∀ i, (s.rollers.get i).seq = { stage := .safe, readyCount := 0, commanded := false, held := .none, timer := none })
    ∧ (∀ i, (s.rollers.get i).coup = { reference := none, composed := 0, prevBase := 0, prevSet := 0, error := none })
    ∧ (∀ i, (s.rollers.get i).published = .safe)
    ∧ (∀ g, (s.groups.get g).state = .idle ∧ (s.groups.get g).cause = .none ∧ (s.groups.get g).windDown = false
        ∧ (s.groups.get g).settle = none ∧ (s.groups.get g).speed = 0 ∧ (s.groups.get g).residue = 0
        ∧ (s.groups.get g).loadBlend = none ∧ (s.groups.get g).blendPos = 0 ∧ (s.groups.get g).dir = .none
        ∧ (s.groups.get g).flags = ⟨false, false, false, false⟩)
    ∧ (∀ t, s.tables.ctl.get t = { live := false, pinned := false, lock := .unlocked })
    ∧ s.tables.due = LiveDue.none ∧ s.tables.changes = [] ∧ s.tables.freezeFlag = false ∧ s.tables.flags = ⟨false, false, false⟩
    ∧ s.svc.queue = [] ∧ s.svc.unanswered = none
    ∧ s.trace.group = 0 ∧ s.trace.decimation = 1 ∧ s.trace.enable = false ∧ s.trace.counter = 0 ∧ s.trace.records = []
    ∧ s.trace.write = ⟨0, false⟩ ∧ s.trace.read = ⟨0, false⟩ ∧ s.trace.overflowCount = 0 ∧ s.trace.overflow = false
    ∧ s.store.state = .idle ∧ s.store.fail = false ∧ s.store.invalid = false ∧ s.store.restart = none

/-- The properties that every step keeps hold right after power-up. -/
def Obligations.InvariantsHoldAtReset : Prop :=
  CycleOk State.reset ∧ FractionOk State.reset ∧ CommandsOk State.reset ∧ ChangesOk State.reset ∧ FreezeOk State.reset
    ∧ TraceOk State.reset ∧ QueueOk State.reset ∧ PassesOk State.reset ∧ ResetHeld State.reset

/-- Applying and removing power: every block takes its power-up values; the pins' levels, the image, the model's own records and the queue
stay. The values of the copies until the load, and what an unpowered part holds, are the model's choice (logs 2 and 19). -/
def Obligations.PowerGivesPowerUpValues : Prop :=
  ∀ s : State,
    let up : State := { State.reset with
      resetLine := s.resetLine, cert := s.cert, sentD := s.sentD, sentM := s.sentM
      svc := { State.reset.svc with nextId := s.svc.nextId, lastReply := s.svc.lastReply }
      store := { State.reset.store with image := s.store.image }, pending := s.pending }
    exec .powerUp s = .next up ∧ exec .powerDown s = .next { up with powered := false }

/-- Assertion of the RESET line: every part of the state takes its RESET-line value, a frame in passage is ended by a link abort after the
bytes already sent, locks, image and pins stay (01 R9, R22; 09 R153; 12 R185). The frame cut is the one the part would have sent, with its
check word of R3, and a frame that has closed and whose check word is still leaving is cut likewise. Three clauses are the model's choice:
the table copies stay as they are until the load of R152 and R183 (log 2), the operands say how many bytes of the last frame at each port
had been sent, its length or more leaving it whole (log 18), and a part without power notes the line alone (log 19). A line already asserted
changes nothing. -/
def Obligations.ResetAssertGivesResetValues : Prop :=
  ∀ (a b : Nat) (s : State),
    let whole := fun (p : Pass) => if p.followed then sentFrame p else { bytes := p.rx, aborted := false }
    let cutAt := fun (n : Nat) (f : SentFrame) => if n < f.bytes.length then { bytes := f.bytes.take n, aborted := true } else f
    (s.powered = true → s.resetLine = false →
      ∃ t, exec (.resetAssert a b) s = .next t ∧ ResetHeld t ∧ t.resetLine = true ∧ t.powered = true ∧ t.cert = s.cert
        ∧ t.outPass = none ∧ t.retPass = none
        ∧ (∀ p, s.outPass = some p → t.sentD = some (cutAt a (whole p))) ∧ (∀ p, s.retPass = some p → t.sentM = some (cutAt b (whole p)))
        ∧ (s.outPass = none → t.sentD = s.sentD.map (cutAt a)) ∧ (s.retPass = none → t.sentM = s.sentM.map (cutAt b))
        ∧ (∀ tb, (t.tables.ctl.get tb).lock = (s.tables.ctl.get tb).lock) ∧ t.tables.staging = s.tables.staging
        ∧ t.tables.active = s.tables.active ∧ t.store.image = s.store.image ∧ t.pending = s.pending)
    ∧ (s.powered = false → s.resetLine = false → exec (.resetAssert a b) s = .next { s with resetLine := true })
    ∧ (s.resetLine = true → exec (.resetAssert a b) s = .next s)

/-- While the RESET line is asserted no step moves the state away from the RESET-line values (01 R9). Release of the line leaves the part
in STARTING with the initial set current (01 R7, R9; 02 R28). -/
def Obligations.ResetLineHoldsUntilRelease : Prop :=
  (∀ s t : State, s.resetLine = true → ResetHeld s → step s = .next t → ResetHeld t)
    ∧ (∀ s : State, s.resetLine = true → ResetHeld s →
         ∃ t, exec .resetRelease s = .next t ∧ t = { s with resetLine := false } ∧ t.lpu.opState = .starting
           ∧ t.slot.current = Quad.all { enable := false, release := false, setpoint := 0 })

/-- The store load in STARTING: from a valid image both copies of every table, from an invalid one the factory defaults with STORE_INVALID
set; the part then enters BYPASS (12 R183). With CERT and the freeze request flag both set freeze comes into effect at that entry, and the
list, the marks and the LIVE flags are cleared (09 R155, R157); otherwise nothing else changes. The image alone outlasts the loss and the
return of power: the load that follows gives its tables, and every lock is UNLOCKED (12 R180, 09 R153); that POWER_DOWN clears the rest at
once, and that POWER_UP of a powered part is a loss and a return of power, is the model's choice (log 19). -/
def Obligations.StoreLoadSetsBothCopies : Prop :=
  (∀ s : State, s.powered = true → s.resetLine = false → s.lpu.opState = .starting →
    let entered := fun (u : State) => if s.cert && s.tables.freezeFlag then { u with tables := { u.tables with
        changes := [], due := LiveDue.none
        ctl := u.tables.ctl.mapT fun _ c => { c with live := false, pinned := false }
        flags := { u.tables.flags with
          pendingDropped := u.tables.flags.pendingDropped || !u.tables.changes.isEmpty || u.tables.due.any } } } else u
    (∀ im, s.store.image = some im → crc32 im.contents = im.check →
      exec .storeLoadComplete s = .next (entered { s with
        lpu := { s.lpu with opState := .bypass }
        tables := { s.tables with staging := tablesOf im.contents, active := tablesOf im.contents } }))
    ∧ ((s.store.image = none ∨ ∃ im, s.store.image = some im ∧ crc32 im.contents ≠ im.check) →
      exec .storeLoadComplete s = .next (entered { s with
        lpu := { s.lpu with opState := .bypass }
        tables := { s.tables with staging := factoryTables, active := factoryTables }
        store := { s.store with invalid := true } })))
    ∧ ∀ s : State, ∃ t u, exec .powerDown s = .next t ∧ exec .powerUp t = .next u ∧ exec .powerUp s = .next u
        ∧ t.powered = false ∧ u.powered = true ∧ t.store.state = .idle ∧ t.store.image = s.store.image ∧ u.store.image = s.store.image
        ∧ u.lpu.opState = .starting
        ∧ (s.resetLine = false → ∃ v, exec .storeLoadComplete u = .next v
          ∧ v.lpu.opState = .bypass ∧ v.tables.staging = v.tables.active
          ∧ v.tables.active = (validImage s.store.image).getD factoryTables ∧ v.store.invalid = (validImage s.store.image).isNone
          ∧ ∀ tb, v.tables.ctl.get tb = { live := false, pinned := false, lock := .unlocked })

/-- STORE_SAVE (12 R181): BUSY while SAVING, STATE while a RESTART awaits its effect, otherwise ACCEPTED with the snapshot of the active
copies taken, the image invalid and the store SAVING. The save completes with the snapshot (12 R182): verified, the image holds it with a
check word over it and the store is IDLE; not verified, the store is FAILED with STORE_FAIL set. Nothing else changes. -/
def Obligations.StoreSavesSnapshot : Prop :=
  (∀ s : State, takesRequests s = true →
     ((∃ snap, s.store.state = .saving snap) → ∃ t, exec .storeSave s = .next t ∧ Replied ⟨.busy, [1]⟩ s t)
       ∧ ((∀ snap, s.store.state ≠ .saving snap) → s.store.restart ≠ none →
           ∃ t, exec .storeSave s = .next t ∧ Replied ⟨.state, [if s.store.state = .failed then 2 else 0]⟩ s t)
       ∧ ((∀ snap, s.store.state ≠ .saving snap) → s.store.restart = none →
           ∃ t, exec .storeSave s = .next t
             ∧ Replied ⟨.accepted, [1]⟩ { s with store := { s.store with state := .saving s.tables.active, image := none } } t))
    ∧ (∀ (s : State) (snap : Tables), s.store.state = .saving snap →
         exec (.saveComplete true) s = .next { s with store := { s.store with
           state := .idle, image := some { contents := tablesBytes snap, check := crc32 (tablesBytes snap) } } }
         ∧ exec (.saveComplete false) s = .next { s with store := { s.store with state := .failed, fail := true } })

/-- What a verified save writes is what a later load reads: the image is valid and gives back every field of the snapshot (12 R182, R183;
13 Section 13.5). -/
def Obligations.SavedImageLoadsBack : Prop :=
  ∀ (s : State) (snap : Tables), s.store.state = .saving snap → tablesFit snap →
    ∃ t, exec (.saveComplete true) s = .next t ∧ validImage t.store.image = some snap

/-- An entry written in the layout of 13 Section 13.5 has its table's size, holds each field at its offset in its size, and is read back
field by field. An absent report offset or group stands as all ones (13 R186). -/
def Obligations.EntriesReadBackFromTheirBytes : Prop :=
  (∀ e : Entry, entryCheck e = true → entryFits e)
    ∧ (∀ e, cellFits e → (cellBytes e).length = 12 ∧ entryOf .cell (cellBytes e) = some (.cell e))
    ∧ (∀ e, slotsFits e → (slotsBytes e).length = 5 ∧ entryOf .slots (slotsBytes e) = some (.slots e))
    ∧ (∀ e, rollersFits e → (rollersBytes e).length = 30 ∧ entryOf .rollers (rollersBytes e) = some (.rollers e))
    ∧ (∀ e, groupsFits e → (groupsBytes e).length = 11 ∧ entryOf .groups (groupsBytes e) = some (.groups e))
    ∧ (∀ e, loadsFits e → (loadsBytes e).length = 10 ∧ entryOf .loads (loadsBytes e) = some (.loads e))
    ∧ (∀ e, cellFits e → let at' := numAt (cellBytes e)
        at' 0 1 = e.station ∧ at' 1 2 = e.cycleUs ∧ at' 3 2 = e.toleranceUs ∧ at' 5 1 = e.missLimit ∧ at' 6 2 = e.standstill
          ∧ at' 8 2 = e.slotAreaLen ∧ at' 10 2 = e.report.getD 65535)
    ∧ (numAt (slotsBytes .absent) 0 1 = 0 ∧ ∀ o i, o < 65536 → i < 65536 → let at' := numAt (slotsBytes (.present o i))
        at' 0 1 = 1 ∧ at' 1 2 = o ∧ at' 3 2 = i)
    ∧ (∀ e, rollersFits e → let at' := numAt (rollersBytes e)
        at' 0 4 = e.scale ∧ intAt (rollersBytes e) 4 1 = e.direction ∧ at' 5 1 = e.window ∧ at' 6 4 = e.jumpLimit ∧ at' 10 4 = e.forceLimit
          ∧ at' 14 1 = e.sampleMissLimit ∧ at' 15 4 = e.vmax ∧ at' 19 2 = e.aMax ∧ at' 21 2 = e.dStop ∧ at' 23 2 = e.stageTimeout
          ∧ at' 25 1 = e.group.getD 255 ∧ intAt (rollersBytes e) 26 4 = e.trim)
    ∧ (∀ e, groupsFits e → let at' := numAt (groupsBytes e)
        at' 0 2 = e.mass ∧ at' 2 1 = e.loadSet ∧ at' 3 2 = e.kp ∧ at' 5 2 = e.corrMax ∧ at' 7 2 = e.slipLimit ∧ at' 9 2 = e.trackBlend)
    ∧ ∀ e, loadsFits e → let at' := numAt (loadsBytes e)
        at' 0 2 = e.a ∧ at' 2 4 = e.b ∧ at' 6 2 = e.c ∧ at' 8 2 = e.vCreep

/-- RESTART (12 R184): PROTECTED under freeze, STATE in ACTIVE or while SAVING, DONE with no change while one awaits its effect, otherwise
ACCEPTED, and it awaits its effect, tied to its own reply-queue entry where it came in a frame. It takes effect once 10,000 µs have passed
since its request was taken, which the age of its entry tells; until then they are counted. As it takes effect (12 R185) the requests taken
have acted: those in service whose owner has not answered are served first, in the order they were taken. Then every block takes its
RESTART value, passes in progress are completed with no further writes, and the sticky flags with their counts, the unanswered record, the
locks, the freeze request flag and the image are kept. Where its reply has been written, that is in the same step, and the reply stays in
the frame (12 R184, 01 R7). The model's choices here: the effect falls in the very step in which the entry leaves the queue and the
requests in service (log 11), RESTART_EFFECT lets the rest of the wait pass, with the line silence timer expiring in it where it ends no
later (log 7), a RESTART without a frame is taken as it is served (log 9), and the table copies stay as they are until the load (log 2). -/
def Obligations.RestartJudgedAndTakesEffect : Prop :=
  (∀ s : State, takesRequests s = true →
     (inFreeze s = true → ∃ t, exec .restart s = .next t ∧ Replied ⟨.barred, []⟩ s t)
       ∧ (inFreeze s = false → (s.lpu.opState = .active ∨ ∃ snap, s.store.state = .saving snap) →
           ∃ t, exec .restart s = .next t ∧ Replied ⟨.state, []⟩ s t)
       ∧ (inFreeze s = false → s.lpu.opState = .bypass → (∀ snap, s.store.state ≠ .saving snap) →
           (s.store.restart ≠ none → ∃ t, exec .restart s = .next t ∧ Replied ⟨.done, []⟩ s t)
           ∧ (s.store.restart = none → ∃ t, exec .restart s = .next t ∧ Replied ⟨.accepted, []⟩ { s with store := { s.store with
               restart := some (match entryFor .restart s with
                 | some e => { waited := e.age, entry := some e.id }
                 | none => { waited := 0, entry := none }) } } t)))
    ∧ (∀ (s : State) (w : RestartWait), s.store.restart = some w →
         let silenceAt := (s.tables.active.cell.missLimit + 2) * s.tables.active.cell.cycleUs
         let first := ∀ n, s.lpu.opState = .active → s.lpu.ext ≠ none → s.lpu.silenceTimer = some n → 10000 - w.waited < silenceAt - n
         let service := (s.svc.orphans ++ s.svc.queue).filter fun e => decide (e.result = none)
         (s.pending = [] → first →
             (10000 ≤ w.waited + 1 → step s = exec .restartEffect s)
             ∧ (w.waited + 1 < 10000 → ∃ t, step s = .next t ∧ t.store = { s.store with restart := some { w with waited := w.waited + 1 } }
                 ∧ t.slot = s.slot ∧ t.rollers = s.rollers ∧ t.groups = s.groups ∧ t.tables = s.tables ∧ t.lpu.opState = s.lpu.opState))
         ∧ (∀ n, s.lpu.opState = .active → s.lpu.ext ≠ none → s.lpu.silenceTimer = some n → silenceAt - n ≤ 10000 - w.waited →
             exec .restartEffect s = exec .restartEffect (lineFault { s with lpu := { s.lpu with
               silenceTimer := none, resyncDue := true, flags := { s.lpu.flags with ringLost := true } } }))
         ∧ (∀ (c : Instr) (before after : List ReplyEntry) (e : ReplyEntry) (u : State), first → takesRequests s = true →
             service = before ++ e :: after → (∀ x ∈ before, x.answer ≠ none) → e.answer = none → (∀ x ∈ after, x.id ≠ e.id) → Asks c e →
             exec c s = .next u → exec .restartEffect s = exec .restartEffect u)
         ∧ (first → (∀ e ∈ service, e.answer ≠ none) → exec .restartEffect s = .next { s with
           lpu := { opState := .starting, ext := none, last := none, resyncDue := false, silenceTimer := none, arrivalTimer := none,
                    flags := s.lpu.flags, checkErrCount := s.lpu.checkErrCount, missedCount := s.lpu.missedCount }
           outPass := s.outPass.map fun p => { p with cut := true, matched := none }
           retPass := s.retPass.map fun p => { p with cut := true, matched := none }
           slot := SlotEngine.initial
           rollers := s.rollers.mapIdx fun _ r => Roller.initial r.chan.flags
           groups := s.groups.mapIdx fun _ g => Group.initial g.flags
           tables := { s.tables with
             ctl := s.tables.ctl.mapT fun _ c => { c with live := false, pinned := false }, due := LiveDue.none, changes := [] }
           svc := { s.svc with queue := [], orphans := [] }
           trace := TraceBuffer.initial s.trace.overflowCount s.trace.overflow
           store := { s.store with state := .idle, restart := none } }))
    ∧ (∀ (s : State) (p : Pass) (e : ReplyEntry) (rep : Reply) (n : Nat), s.retPass = some p → p.followed = true → p.cut = false →
         serviceAt p.rx < p.rx.length → p.matched = some e.id → s.svc.queue = [e] → s.svc.orphans = [] → e.result = some rep →
         s.store.restart = some { waited := n, entry := some e.id } →
         ∃ t q, exec .serviceAreaReturn s = .next t ∧ t.lpu.opState = .starting ∧ t.store.restart = none ∧ t.svc.queue = []
           ∧ t.retPass = some q ∧ q.cut = true ∧ q.tx = patchAt p.tx (serviceAt p.rx + 3) (replyBytes rep))

/-- The state as the entry into freeze leaves the tables: the list emptied, pins, live-due marks and LIVE flags cleared, PENDING_DROPPED
set where a record or a mark was dropped (09 R157). The three events that complete the freeze condition bring this entry; the end of
freeze restores nothing (09 R159). FREEZE and THAW (09 R156): FREEZE sets the flag, with the entry into freeze where CERT is asserted;
THAW clears it with the line released and is refused PROTECTED with the line asserted. Each reply carries the freeze byte as the request
left it. -/
def Obligations.FreezeComesAndGoes : Prop :=
  (let entered (s : State) : TableManager := { s.tables with
     changes := [], due := LiveDue.none
     ctl := s.tables.ctl.mapT fun _ c => { c with live := false, pinned := false }
     flags := { s.tables.flags with
       pendingDropped := s.tables.flags.pendingDropped || !s.tables.changes.isEmpty || s.tables.due.any } }
   (∀ s : State, s.lpu.opState ≠ .starting → s.cert = false → s.tables.freezeFlag = true →
       exec .certAssert s = .next { s with cert := true, tables := entered s })
     ∧ (∀ s : State, s.tables.freezeFlag = false → exec .certAssert s = .next { s with cert := true })
     ∧ (∀ s : State, s.powered = true → s.resetLine = false → s.lpu.opState = .starting → s.cert = true → s.tables.freezeFlag = true →
       ∃ t, exec .storeLoadComplete s = .next t ∧ inFreeze t = true ∧ FreezeOk t ∧ t.tables.staging = t.tables.active
         ∧ t.tables.active = (validImage s.store.image).getD factoryTables)
     ∧ ∀ s : State, exec .certRelease s = .next { s with cert := false } ∧ inFreeze { s with cert := false } = false)
    ∧ (∀ s : State, takesRequests s = true →
         (s.cert = false → ∃ t, exec .freeze s = .next t
           ∧ Replied ⟨.done, [1]⟩ { s with tables := { s.tables with freezeFlag := true } } t)
         ∧ (s.cert = true → ∃ t u, exec .freeze s = .next t ∧ Replied ⟨.done, [7]⟩ u t ∧ inFreeze t = true
             ∧ (s.tables.freezeFlag = true → u = s)
             ∧ (s.tables.freezeFlag = false → u = { s with tables := { s.tables with
                 freezeFlag := true, changes := [], due := LiveDue.none
                 ctl := s.tables.ctl.mapT fun _ c => { c with live := false, pinned := false }
                 flags := { s.tables.flags with
                   pendingDropped := s.tables.flags.pendingDropped || !s.tables.changes.isEmpty || s.tables.due.any } } }))
         ∧ (s.cert = false → ∃ t, exec .thaw s = .next t
           ∧ Replied ⟨.done, [0]⟩ { s with tables := { s.tables with freezeFlag := false } } t)
         ∧ (s.cert = true → ∃ t, exec .thaw s = .next t ∧ Replied ⟨.barred, [BitVec.ofNat 8 (freezeByte s)]⟩ s t))

/-- While certification freeze is in effect no command changes an active or a staging copy (09 R158), from every state in which the entry
into freeze has been made, and that stays so; only the supply, whose loss ends freeze, replaces the copies (log 2). -/
def Obligations.FreezeHoldsActiveCopies : Prop :=
  (∀ s t : State, FreezeOk s → step s = .next t → FreezeOk t)
    ∧ ∀ s t : State, FreezeOk s → inFreeze s = true → s.pending.head? ≠ some .powerUp → s.pending.head? ≠ some .powerDown →
      step s = .next t → t.tables.active = s.tables.active ∧ t.tables.staging = s.tables.staging

/-! ## Frames in passage -/

/-- The header of a cycle frame in BYPASS or ACTIVE fixes the state of its pass and its shortness (01 R6, R13); on the return pass the frame
belongs to the oldest entry of the reply queue if that one has its cycle number, and to none if no entry has (10 R165). The pass notes
CELL.station as the header finds it, the station its target byte meets unless a commit of CELL is applied before that byte passes (10 R162;
CommitAppliesOrWaits). Three clauses are the model's choice: that the sender says with the frame how many such commits there are (log 12),
that the cycle number alone decides the match, whatever the target station (log 43), and that a frame is its bytes alone, without a mark for
a link abort at arrival (log 40). The header of a frame that is no cycle frame, and of one that arrives in STARTING or while RESET is
asserted: the frame leaves with the bytes it arrived with, and nothing else than the pass and, at Port D, the in-field buffers is touched
(01 R1, R2, R7, R9). -/
def Obligations.HeaderFixesPass : Prop :=
  (∀ (s : State) (f : LinkFrame), s.powered = true → s.resetLine = false → s.lpu.opState ≠ .starting → isCycleFrame f.bytes = true →
     restartDue s = false →
     let bytes := f.bytes
     let p : Pass := { rx := bytes, tx := bytes, mode := if s.lpu.opState = .active then .active else .bypass
                       short := decide (frameSlotLen bytes < s.tables.active.cell.slotAreaLen), written := false, cut := false
                       voided := false, station := s.tables.active.cell.station, ahead := f.ahead, latched := none, matched := none }
     exec (.passHeader .m f) s = .next { s with outPass := some p }
       ∧ (∀ e rest, s.svc.queue = e :: rest → e.cycle = frameCycle bytes →
         exec (.passHeader .d f) s = .next { s with
           retPass := some { p with matched := some e.id }, slot := { s.slot with buffers := Quad.all none } })
       ∧ ((∀ e ∈ s.svc.queue, e.cycle ≠ frameCycle bytes) →
         exec (.passHeader .d f) s = .next { s with retPass := some p, slot := { s.slot with buffers := Quad.all none } }))
    ∧ (∀ (s : State) (f : LinkFrame), s.powered = true →
         let bytes := f.bytes
         (isCycleFrame bytes = false ∨ s.resetLine = true ∨ s.lpu.opState = .starting) → restartDue s = false →
         (∃ p, p.followed = false ∧ p.rx = bytes ∧ p.tx = bytes
           ∧ exec (.passHeader .m f) s = .next { s with outPass := some p, sentD := some { bytes := bytes, aborted := false } })
         ∧ ∃ p, p.followed = false ∧ p.rx = bytes ∧ p.tx = bytes
           ∧ exec (.passHeader .d f) s = .next { s with
               retPass := some p, sentM := some { bytes := bytes, aborted := false }, slot := { s.slot with buffers := Quad.all none } })

/-- The reply queue holds at most 4 entries, which every step keeps, and a new entry that finds it full removes the oldest, whose result is
recorded as unanswered, at once where it is present, and where the oldest is still in service once it is present: until then the request
stays in service outside the queue (10 R164, R166; the record is in ResultsBecomePresent). A return frame that matches a later entry: the
older entry's frame will not come back, so the entry is removed and its result recorded as unanswered with LATE_REPLY set (10 R165, R166).
That the cycle number alone decides the match is the model's choice (log 43). -/
def Obligations.QueueGivesUpOldest : Prop :=
  (∀ s t : State, QueueOk s → step s = .next t → QueueOk t)
    ∧ (∀ (s : State) (p : Pass) (a b c d : ReplyEntry), s.outPass = some p → p.followed = true → p.rx.length = declaredLen p.rx →
         p.cut = false → s.store.restart = none → checkGood p.rx = true → s.svc.queue = [a, b, c, d] → (∀ x ∈ [b, c, d], x.id ≠ a.id) →
         (serviceByte p.rx 0).toNat = p.station →
         ∃ t n, exec .outboundCheckWord s = .next t ∧ t.svc.queue = [b, c, d, n] ∧ n.id = s.svc.nextId ∧ n.cycle = frameCycle p.rx
           ∧ (∀ r, a.result = some r → t.svc.orphans = s.svc.orphans
               ∧ t.svc.unanswered = some { kind := a.kind, cycle := a.cycle, code := r.code } ∧ t.lpu.flags.lateReply = true)
           ∧ (a.result = none → t.svc.orphans = s.svc.orphans ++ [{ a with record := true }]
               ∧ t.svc.unanswered = s.svc.unanswered ∧ t.lpu.flags.lateReply = s.lpu.flags.lateReply))
    ∧ (∀ (s : State) (f : LinkFrame) (d e : ReplyEntry) (rest : List ReplyEntry) (r : Reply), s.powered = true → s.resetLine = false →
         let bytes := f.bytes
         s.lpu.opState ≠ .starting → isCycleFrame bytes = true → s.store.restart = none → s.svc.queue = d :: e :: rest →
         d.cycle ≠ frameCycle bytes → e.cycle = frameCycle bytes → d.result = some r → (∀ x ∈ e :: rest, x.id ≠ d.id) →
         ∃ t, exec (.passHeader .d f) s = .next t ∧ t.svc.queue = e :: rest ∧ t.svc.orphans = s.svc.orphans
           ∧ t.svc.unanswered = some { kind := d.kind, cycle := d.cycle, code := r.code } ∧ t.lpu.flags.lateReply = true
           ∧ ∃ p, t.retPass = some p ∧ p.matched = some e.id)

/-- A cycle frame whose length on the link differs from the declared one: its check is bad, and the forwarded copy ends with a link abort,
at the same point for a frame that ended early, in place of the first byte beyond the declared end for one that runs on; what of the check
word leaves is in both that of a bad check, the complement where the part has written into the frame (01 R3, R4, R5). An entry of the reply
queue whose return frame ends early is removed all the same (10 R165); that its result is then not recorded as unanswered is the model's
choice (log 25). -/
def Obligations.CutFramesCountAsBad : Prop :=
  ∀ (s : State) (p : Pass), p.followed = true → p.cut = false → p.rx.length ≠ declaredLen p.rx →
    let bad : Lpu := { s.lpu with
      flags := { s.lpu.flags with checkErr := true }, checkErrCount := min 65535 (s.lpu.checkErrCount + 1) }
    let marked : List Byte := if p.written then p.tx.take (checkAt p.rx) ++ checkBytes (~~~ crc32 (p.tx.take (checkAt p.rx)))
      else p.tx.take (declaredLen p.rx)
    let left : SentFrame := { bytes := if p.rx.length < declaredLen p.rx then marked.take p.tx.length else marked, aborted := true }
    let ended : State := { s with lpu := bad, retPass := none, sentM := some left, slot := { s.slot with buffers := Quad.all none } }
    (s.outPass = some p → exec (.frameCutShort .m) s = .next { s with lpu := bad, outPass := none, sentD := some left })
    ∧ (s.retPass = some p →
        (declaredLen p.rx < p.rx.length ∨ ∀ id, p.matched = some id → entryOfId id s = none) → restartDue s = false →
        exec (.frameCutShort .d) s = .next ended)
    ∧ (∀ e : ReplyEntry, s.retPass = some p → p.rx.length < declaredLen p.rx → p.matched = some e.id → entryOfId e.id s = some e →
        s.store.restart = none →
        exec (.frameCutShort .d) s = .next { ended with svc := { s.svc with
          queue := s.svc.queue.filter fun x => decide (x.id ≠ e.id)
          orphans := if e.result.isNone then s.svc.orphans ++ [{ e with record := false }] else s.svc.orphans } })

/-- The check word sent for a whole cycle frame (01 R3): a frame not written leaves as it arrived, a written one carries the check over
its bytes as forwarded, or its complement; so a frame leaves with a good check exactly when it arrived with one. -/
def Obligations.CheckWordFollowsArrival : Prop :=
  ∀ p : Pass, PassOk p → isCycleFrame p.rx = true → p.rx.length = declaredLen p.rx →
    (sentFrame p).aborted = false ∧ (sentFrame p).bytes.length = p.rx.length
      ∧ (p.written = false → (sentFrame p).bytes = p.rx)
      ∧ (p.written = true → checkGood p.rx = true →
          (sentFrame p).bytes = p.tx.take (checkAt p.rx) ++ checkBytes (crc32 (p.tx.take (checkAt p.rx))))
      ∧ (p.written = true → checkGood p.rx = false →
          (sentFrame p).bytes = p.tx.take (checkAt p.rx) ++ checkBytes (~~~ crc32 (p.tx.take (checkAt p.rx))))
      ∧ checkGood (sentFrame p).bytes = checkGood p.rx

/-- Every pass in progress forwards a frame of the length it arrived with and with its header unchanged, and a pass that is not written
forwards the bytes as they arrived (01 R1, R3): every step keeps it. -/
def Obligations.PassesKeptByEveryStep : Prop :=
  ∀ s t : State, PassesOk s → step s = .next t → PassesOk t

/-- The stage gate (02 R31): its table, and that it only clears a command or replaces a setpoint by 0, so that a written RELEASE is found in
RELEASING and RELEASED alone and comes with ENABLE. The first out-field latches the current set as the frame's set, once (02 R29); each
out-field that passes is written whole from the latched set through the gate for the stage as it stands (02 R27, R29, R31), and the frame is
then a written one (01 R3). Nothing else changes. The first out-field is the one of lowest offset among the PRESENT rollers of the START (02
R23, R29). No out-field is written and no set latched on a pass fixed in BYPASS, on a short one and on one that a RESTART has cut, for an
ABSENT roller, and where the frame does not reach the field (01 R7, R8, R13; 02 R23). An out-field is 6 bytes, with ENABLE and RELEASE in
bits 0 and 1 of its control word and the setpoint after it (13 Section 13.1). -/
def Obligations.OutFieldsPassTheGate : Prop :=
  (∀ (q : Sequence) (c : Command),
     ((q.stage = .safe ∨ q.stage = .disabling ∨ (q.stage = .enabling ∧ q.commanded = false)) → gate q c = ⟨false, false, 0⟩)
       ∧ (((q.stage = .enabling ∧ q.commanded = true) ∨ q.stage = .energised ∨ q.stage = .applying) → gate q c = ⟨c.enable, false, 0⟩)
       ∧ (q.stage = .releasing → gate q c = ⟨c.enable, c.release, 0⟩) ∧ (q.stage = .released → gate q c = c)
       ∧ ((gate q c).enable = true → c.enable = true) ∧ ((gate q c).release = true → c.release = true)
       ∧ ((gate q c).setpoint = 0 ∨ (gate q c).setpoint = c.setpoint)
       ∧ ((gate q c).release = true → (c.release = true → c.enable = true) →
           (q.stage = .releasing ∨ q.stage = .released) ∧ (gate q c).enable = true))
    ∧ (∀ (s : State) (p : Pass) (m : SlotMap), s.outPass = some p → s.slot.positions = some m →
         let works := p.mode = .active ∧ p.short = false ∧ p.cut = false
         let set := p.latched.getD s.slot.current
         (∀ (i : Fin 4) (out inp : Nat), m.slots.get i = .present out inp → (∀ j o n, m.slots.get j = .present o n → out ≤ o) →
             (works → 5 + out < p.rx.length → exec .firstOutField s = .next { s with outPass := some { p with latched := some set } })
             ∧ (p.rx.length ≤ 5 + out → exec .firstOutField s = .next s))
         ∧ (∀ (i : Fin 4) (out inp : Nat), m.slots.get i = .present out inp →
             (works → p.tx.length = p.rx.length → 5 + out < p.rx.length →
               exec (.outFieldPassage i) s = .next { s with outPass := some { p with
                 latched := some set, written := true
                 tx := patchAt p.tx (5 + out) (outFieldBytes (gate (s.rollers.get i).seq (set.get i))) } })
             ∧ (p.rx.length ≤ 5 + out → exec (.outFieldPassage i) s = .next s))
         ∧ (∀ i, m.slots.get i = .absent → exec (.outFieldPassage i) s = .next s)
         ∧ ((∀ i, m.slots.get i = .absent) → exec .firstOutField s = .next s)
         ∧ (¬ works → exec .firstOutField s = .next s ∧ ∀ i, exec (.outFieldPassage i) s = .next s))
    ∧ (∀ s : State, (s.outPass = none ∨ s.slot.positions = none) →
         exec .firstOutField s = .next s ∧ ∀ i, exec (.outFieldPassage i) s = .next s)
    ∧ ∀ c : Command, (outFieldBytes c).length = 6 ∧ numAt (outFieldBytes c) 0 2 = c.enable.toNat + 2 * c.release.toNat
        ∧ intAt (outFieldBytes c) 2 4 = Int.bmod c.setpoint (2 ^ 32)

/-- A present roller's in-field that passes whole on an ACTIVE, not short return pass fills its buffer with the sample as it arrived (02
R25); the report field is written whole from the report image (02 R36). Nothing else changes. No sample is buffered and no report written
on a pass fixed in BYPASS, on a short one and on one that a RESTART has cut, for an ABSENT roller, with no report offset or no image, and
where the frame ends before the field (01 R7, R8, R13; 02 R23, R25, R33, R36). The layouts are those of 13 Sections 13.1 and
13.3: status, stamp, count and force of an in-field, and the 24 bytes of the report field with every item of R34 at its place; the codes of
a group state byte are in IdentifyAndStatusChangeNothing. -/
def Obligations.ReturnFieldsExchanged : Prop :=
  (∀ (s : State) (p : Pass) (m : SlotMap), s.retPass = some p → s.slot.positions = some m →
      let works := p.mode = .active ∧ p.short = false ∧ p.cut = false
      (∀ (i : Fin 4) (out inp : Nat), m.slots.get i = .present out inp →
          (works → 5 + inp + 10 ≤ p.rx.length → exec (.inFieldPassage i) s = .next { s with slot := { s.slot with
            buffers := s.slot.buffers.set i (some (sampleOf (sliceAt p.rx (5 + inp) 10))) } })
          ∧ (p.rx.length < 5 + inp + 10 → exec (.inFieldPassage i) s = .next s))
      ∧ (∀ i, m.slots.get i = .absent → exec (.inFieldPassage i) s = .next s)
      ∧ (∀ (off : Nat) (im : ReportImage), m.report = some off → s.slot.image = some im →
          (works → p.tx.length = p.rx.length → 5 + off < p.rx.length → exec .reportFieldArrival s = .next { s with retPass := some { p with
            tx := patchAt p.tx (5 + off) (reportBytes im), written := true } })
          ∧ (p.rx.length ≤ 5 + off → exec .reportFieldArrival s = .next s))
      ∧ ((m.report = none ∨ s.slot.image = none) → exec .reportFieldArrival s = .next s)
      ∧ (¬ works → exec .reportFieldArrival s = .next s ∧ ∀ i, exec (.inFieldPassage i) s = .next s))
    ∧ (∀ s : State, (s.retPass = none ∨ s.slot.positions = none) →
      exec .reportFieldArrival s = .next s ∧ ∀ i, exec (.inFieldPassage i) s = .next s)
    ∧ (∀ bs : List Byte, let st := numAt bs 0 1
        sampleOf bs = { status := ⟨st.testBit 0, st.testBit 1, st.testBit 2, st.testBit 3⟩, stamp := BitVec.ofNat 8 (numAt bs 1 1)
                        count := BitVec.ofNat 32 (numAt bs 2 4), force := intAt bs 6 4 })
    ∧ ∀ im : ReportImage,
      let b := reportBytes im
      b.length = 24 ∧ numAt b 0 1 = 2 ∧ numAt b 1 1 = (if im.freeze then 4 else 0) ∧ numAt b 2 1 = im.pendingCount % 256
        ∧ (∀ n, (numAt b 3 1).testBit n = [im.summary.line, im.summary.roller, im.summary.latch, im.summary.group, im.summary.table,
            im.summary.trace, im.summary.store].getD n false)
        ∧ numAt b 4 4 = im.cycle % 2 ^ 32
        ∧ ∀ g : Fin 4, numAt b (8 + g) 1 = groupByte (im.groups.get g) ∧ intAt b (12 + 3 * g) 3 = Int.bmod (im.speeds.get g) (2 ^ 24)

/-- The service area of a return frame whose entry has its result: the reply is written and the entry removed (10 R165); with the result
absent the frame passes unchanged and the request, still in service, is to be recorded (10 R166); that this holds for a frame which ends
inside its service area too is the model's choice (log 44). A reply is 67 bytes: REPLIED, the result code, the length, the payload and zeros
after it (13 Section 13.1; the codes are in IdentifyAndStatusChangeNothing). -/
def Obligations.ReplyWrittenIntoItsFrame : Prop :=
  (∀ rep : Reply, rep.payload.length ≤ 64 → replyBytes rep
    = [1, BitVec.ofNat 8 (resultCode rep.code), BitVec.ofNat 8 rep.payload.length] ++ rep.payload ++ List.replicate (64 - rep.payload.length) 0)
  ∧ ∀ (s : State) (p : Pass) (e : ReplyEntry), s.retPass = some p → p.followed = true → p.cut = false → p.tx.length = p.rx.length →
    serviceAt p.rx + 3 < p.rx.length → p.matched = some e.id → entryOfId e.id s = some e → s.store.restart = none →
    let left := s.svc.queue.filter fun x => decide (x.id ≠ e.id)
    (∀ rep, e.result = some rep → exec .serviceAreaReturn s = .next { s with
      retPass := some { p with matched := none, written := true, tx := patchAt p.tx (serviceAt p.rx + 3) (replyBytes rep) }
      svc := { s.svc with queue := left } })
    ∧ (e.result = none → exec .serviceAreaReturn s = .next { s with
      retPass := some { p with matched := none }
      svc := { s.svc with queue := left, orphans := s.svc.orphans ++ [{ e with record := true }] } })

/-- The check word of an outbound frame (01 R3, R5; 10 R162, R164): a good one takes the request of a frame addressed to the part, whose
entry goes to the tail of the queue, and takes nothing from another frame; a bad one sets CHECK_ERR and counts. The judgement of a taken
request (10 R163): an unknown kind is UNKNOWN, a WRITE_ENTRY that names no table INVALID, a length other than the fixed one of 13 Section
13.4 LENGTH, each with an empty payload, and any other request goes to its owner. The target is compared with the station
the pass holds, which is CELL.station as it stood when the target byte passed (10 R162; HeaderFixesPass, CommitAppliesOrWaits). That the
table code of a WRITE_ENTRY is its first payload byte even where the request length is 0, a byte that R163 says is not read, is the model's
choice (log 39). -/
def Obligations.OutboundCheckTakesRequest : Prop :=
  (∀ (s : State) (p : Pass), s.outPass = some p → p.followed = true → p.rx.length = declaredLen p.rx → p.cut = false →
     s.store.restart = none →
     let sent : State := { s with outPass := none, sentD := some (sentFrame p) }
     (checkGood p.rx = true → (serviceByte p.rx 0).toNat = p.station → s.svc.queue.length < 4 →
       exec .outboundCheckWord s = .next { sent with svc := { s.svc with
         nextId := s.svc.nextId + 1
         queue := s.svc.queue ++ [{ id := s.svc.nextId, cycle := frameCycle p.rx, kind := serviceByte p.rx 1
                                    payload := servicePayload p.rx, answer := none
                                    result := judgedResult (serviceByte p.rx 1) (serviceByte p.rx 2).toNat (servicePayload p.rx)
                                    age := 0, record := false }] } })
     ∧ (checkGood p.rx = true → (serviceByte p.rx 0).toNat ≠ p.station → exec .outboundCheckWord s = .next sent)
     ∧ (checkGood p.rx = false → exec .outboundCheckWord s = .next { sent with lpu := { s.lpu with
         flags := { s.lpu.flags with checkErr := true }, checkErrCount := min 65535 (s.lpu.checkErrCount + 1) } }))
    ∧ (∀ (kind : Byte) (len : Nat) (payload : List Byte),
         ((kind.toNat = 0 ∨ 18 < kind.toNat) → judgedResult kind len payload = some ⟨.unknown, []⟩)
           ∧ (kind.toNat = 8 → 4 < (payloadByte payload 0).toNat → judgedResult kind len payload = some ⟨.invalid, []⟩)
           ∧ (∀ x ∈ [(1, 0), (2, 0), (3, 8), (4, 0), (5, 0), (6, 2), (7, 3), (9, 2), (10, 12), (11, 1), (12, 2), (13, 0), (14, 0), (15, 3),
                (16, 0), (17, 0), (18, 0)], kind.toNat = x.1 →
               judgedResult kind len payload = if len = x.2 then none else some ⟨.length, []⟩)
           ∧ ∀ x ∈ [(0, 14), (1, 7), (2, 32), (3, 13), (4, 12)], kind.toNat = 8 → (payloadByte payload 0).toNat = x.1 →
               judgedResult kind len payload = if len = x.2 then none else some ⟨.length, []⟩)

/-- A request's way from its entry to its result (10 R163, R164, R166). A request row gives its reply to the oldest request in service that
asks for it, with the kind and the payload of 13 Section 13.4, and that its owner has not answered; where there is none no entry changes. In
STARTING, under RESET and without power no request is taken (01 R7, R9). An owner that finishes makes the result present, in the entry, or,
where the entry has left the queue as unanswered, by setting LATE_REPLY and replacing the unanswered record; one that has not answered yet
serves the request at that moment. An accepted RESTART waits from the moment its request was taken, for its own entry (12 R184). Requests in
service are those whose entry has left the queue and those in it, oldest first. That the row serves at the moment of the command and its
reply is kept for the entry (log 9), and that SERVICE_COMPLETE names which request finishes (log 10), is the model's choice. -/
def Obligations.ResultsBecomePresent : Prop :=
  ∀ s : State,
    let service := (s.svc.orphans ++ s.svc.queue).filter fun e => decide (e.result = none)
    let answered := fun (id : Nat) (rep : Reply) (e : ReplyEntry) => if e.id = id then { e with answer := some rep } else e
    let complete := fun (id : Nat) (rep : Reply) (e : ReplyEntry) => if e.id = id then { e with result := some rep } else e
    let waits := fun (u : State) (held : List ReplyEntry) =>
      ∀ w id, u.store.restart = some w → w.entry = some id → ∃ x ∈ held, x.id = id
    (∀ (c : Instr) (kind : Byte), requestKind c = some kind →
        (takesRequests s = false → exec c s = .next s)
        ∧ (takesRequests s = true → ∃ t rep, exec c s = .next t ∧ t.svc.lastReply = some rep
            ∧ (∀ before e after, service = before ++ e :: after → (∀ x ∈ before, x.answer = none → ¬ Asks c x) → e.answer = none →
                Asks c e → t.svc.queue = s.svc.queue.map (answered e.id rep) ∧ t.svc.orphans = s.svc.orphans.map (answered e.id rep))
            ∧ ((∀ x ∈ service, x.answer = none → ¬ Asks c x) → t.svc.queue = s.svc.queue ∧ t.svc.orphans = s.svc.orphans)))
    ∧ (∀ n, service[n]? = none → exec (.serviceComplete n) s = .next s)
    ∧ ∀ (n : Nat) (e : ReplyEntry) (rep : Reply) (u : State), service[n]? = some e →
      ((e.answer = some rep ∧ u = s)
        ∨ (e.answer = none ∧ takesRequests s = true ∧ ∃ c v, Asks c e
            ∧ exec c { s with svc := { s.svc with queue := [], orphans := [] } } = .next v ∧ v.svc.lastReply = some rep
            ∧ u = { v with
                svc := { v.svc with queue := s.svc.queue, orphans := s.svc.orphans }
                store := { v.store with restart := if e.kind = 18 ∧ rep.code = .accepted then some { waited := e.age, entry := some e.id }
                           else v.store.restart } })) →
      ((∃ x ∈ s.svc.queue, x.id = e.id) → waits u (s.svc.queue ++ s.svc.orphans) →
        exec (.serviceComplete n) s = .next { u with svc := { u.svc with
          queue := s.svc.queue.map (complete e.id rep), orphans := s.svc.orphans.map (complete e.id rep) } })
      ∧ ((∀ x ∈ s.svc.queue, x.id ≠ e.id) →
        let left := s.svc.orphans.filter fun x => decide (x.id ≠ e.id)
        waits u (s.svc.queue ++ left) →
        (e.record = true → exec (.serviceComplete n) s = .next { u with
          lpu := { u.lpu with flags := { u.lpu.flags with lateReply := true } }
          svc := { u.svc with orphans := left, unanswered := some { kind := e.kind, cycle := e.cycle, code := rep.code } } })
        ∧ (e.record = false → exec (.serviceComplete n) s = .next { u with svc := { u.svc with orphans := left } }))

/-- The check word of a whole return cycle frame, after dt elapsed microseconds in which no RESTART takes effect: the frame leaves, the
buffers are empty, and a good frame of an ACTIVE pass is classified, a short one sets SHORT_FRAME, one of a BYPASS pass gives nothing, a bad
one is counted (01 R3, R5, R8, R12, R13, R14; 02 R26). Time that passes has dt added to the line silence timer, the arrival timer, the wait
of a RESTART and the age of every request taken; where the silence timer would pass (miss_limit + 2) × cycle_us (01 R18) it has expired
before the check word: it is stopped, RING_LOST is set, a resync is due and the line fault event has been raised. That the timers advance
by the operand and that an end which falls together with the check word is left for later is the model's choice (log 7), and so is that a
pass a HALT has met gives nothing even in a new run (log 26). -/
def Obligations.ReturnCheckWordDecides : Prop :=
  ∀ (s : State) (p : Pass) (dt : Nat) (order : List (Fin 4)), s.retPass = some p → p.followed = true → p.rx.length = declaredLen p.rx →
    p.cut = false → (∀ w, s.store.restart = some w → dt = 0 ∨ w.waited + dt ≤ 10000) →
    let older := fun (e : ReplyEntry) => { e with age := e.age + dt }
    let later : State := { s with
      lpu := { s.lpu with silenceTimer := s.lpu.silenceTimer.map (· + dt), arrivalTimer := s.lpu.arrivalTimer.map (· + dt) }
      store := { s.store with restart := s.store.restart.map fun w => { w with waited := w.waited + dt } }
      svc := { s.svc with queue := s.svc.queue.map older, orphans := s.svc.orphans.map older } }
    let silent := s.lpu.opState = .active ∧ s.lpu.ext ≠ none
      ∧ ∃ n, s.lpu.silenceTimer = some n ∧ 0 < dt ∧ (s.tables.active.cell.missLimit + 2) * s.tables.active.cell.cycleUs < n + dt
    advanceTimers dt s = later
      ∧ ∀ u : State, (¬ silent → u = later) → (silent → u = lineFault { later with lpu := { later.lpu with
          silenceTimer := none, resyncDue := true, flags := { s.lpu.flags with ringLost := true } } }) →
    let sent : State := { u with retPass := none, sentM := some (sentFrame p) }
    (checkGood p.rx = true → p.mode = .active → p.short = false → p.voided = false → s.lpu.opState = .active →
        exec (.returnCheckWord dt order) s = .next (clearBuffers (classify order (frameCycle p.rx) sent)))
      ∧ (checkGood p.rx = true → p.mode = .active → p.short = true →
        exec (.returnCheckWord dt order) s = .next { clearBuffers sent with lpu := { sent.lpu with
          flags := { sent.lpu.flags with shortFrame := true } } })
      ∧ (checkGood p.rx = true → (p.mode = .bypass ∨ (p.short = false ∧ (p.voided = true ∨ s.lpu.opState ≠ .active))) →
        exec (.returnCheckWord dt order) s = .next (clearBuffers sent))
      ∧ (checkGood p.rx = false →
        exec (.returnCheckWord dt order) s = .next { clearBuffers sent with lpu := { sent.lpu with
          flags := { sent.lpu.flags with checkErr := true }, checkErrCount := min 65535 (sent.lpu.checkErrCount + 1) } })

/-- The classification of a good return frame (01 R14, R15, R17, R20): first cycle, resync, duplicate, ordinary acceptance, each with E, L,
the timers, the flags and the missed-cycle count it leaves. An accepted frame is handed over as one accepted cycle with its E, its gap k
and, for a resync, the resync mark, and the line fault event of a resync comes first; a duplicate changes nothing but its flag. -/
def Obligations.ReturnFramesClassified : Prop :=
  ∀ (s : State) (order : List (Fin 4)) (cycle : BitVec 16),
    let accepted := fun (e : Nat) (u : State) => { u with lpu := { u.lpu with
      ext := some e, last := some cycle, resyncDue := false, silenceTimer := some 0, arrivalTimer := some 0 } }
    (s.lpu.ext = none →
        classify order cycle s = acceptedCycle order cycle.toNat 1 false (accepted cycle.toNat s)
          ∧ (classify order cycle s).lpu = (accepted cycle.toNat s).lpu)
      ∧ ∀ e l, s.lpu.ext = some e → s.lpu.last = some l →
        let gap := (cycle - l).toNat
        let limit := s.tables.active.cell.missLimit + 1
        (s.lpu.resyncDue = false → gap = 0 →
          classify order cycle s = { s with lpu := { s.lpu with flags := { s.lpu.flags with duplicate := true } } })
        ∧ (s.lpu.resyncDue = false → 1 ≤ gap → gap ≤ limit →
          let u := accepted (e + gap) { s with lpu := { s.lpu with
            missedCount := min 4294967295 (s.lpu.missedCount + (gap - 1))
            flags := { s.lpu.flags with
              missed := s.lpu.flags.missed || decide (1 < gap)
              offTime := s.lpu.flags.offTime || decide (s.tables.active.cell.toleranceUs
                < ((s.lpu.arrivalTimer.getD 0 : Int) - gap * s.tables.active.cell.cycleUs).natAbs) } } }
          classify order cycle s = acceptedCycle order (e + gap) gap false u ∧ (classify order cycle s).lpu = u.lpu)
        ∧ ((s.lpu.resyncDue = true ∨ limit < gap) →
          let e1 := e + if gap = 0 then 65536 else gap
          let marked := { s with lpu := { s.lpu with flags := { s.lpu.flags with resync := true } } }
          classify order cycle s = acceptedCycle order e1 1 true (accepted e1 (lineFault marked))
            ∧ (classify order cycle s).lpu = (accepted e1 marked).lpu)

/-- While E is set, E modulo 65,536 equals L (01 R16): every step keeps it. Successive values of E increase through a run (01 R16): a step
of the part from a state with E set to one with E set in the same run never lowers E. A run ends where the part leaves ACTIVE. -/
def Obligations.CycleNumberKeptAndRising : Prop :=
  (∀ s t : State, CycleOk s → step s = .next t → CycleOk t)
    ∧ (∀ (s t : State) (e f : Nat), s.lpu.ext = some e → s.lpu.opState = .active → t.lpu.ext = some f → step s = .next t → e ≤ f)

/-- An accepted cycle (01 R17): the Table Manager's work, every channel once in an order that is free (log 8), every group stepped and
composed once its members have measured, publication, the trace, the report image. A PRESENT roller whose buffer is empty takes nothing (the
model's choice, log 27). One channel takes its buffered sample: the measurement, a hard fault of which forces SAFE, the stage work on the
status of a usable sample, and one hard fault event to its group (03 R39, R54; 06 R98). A group's step forms F_g and F_rl from the speed
before it, advances the blend, moves v_g and r, runs its tests and hands on (04 R58); its composition follows (05 R77 to R93). What the
cycle leaves: the report image formed for it with every item of R34 and R35, the buffers empty (02 R26), a published set whose setpoints are
every roller's new prev_i and whose control words follow the stages at composition (05 R92, R93), setpoint 0 for a roller of no group (05
R91), and the line port, the passes, the reply queue and the store untouched. Publication records each roller's stage and its setpoint as
prev_i, and a held apply then moves a RELEASED roller with setpoint 0 within the standstill band to APPLYING with its timer at 0 (06 R104,
third moment; the set carries the control word from before). That APPLYING is so entered with ready count 0 and the enable not commanded is
the model's choice (log 31): 06 Section 6.1 gives both a meaning in ENABLING alone. The cycle's trace record holds the items of R175 as
publication leaves them; that its group state is the one the step handed on, with the blend direction after the move, is the model's choice
(log 15). -/
def Obligations.AcceptedCyclePublishes : Prop :=
  (∀ (order : List (Fin 4)) (e k : Nat) (resync : Bool) (s : State),
    let t := acceptedCycle order e k resync s
    (∃ im, t.slot.image = some im ∧ ImageShows e t im) ∧ t.slot.buffers = Quad.all none ∧ t.slot.positions = s.slot.positions
      ∧ (∀ i, (t.rollers.get i).coup.prevSet = (t.slot.current.get i).setpoint)
      ∧ (∀ i, ((t.slot.current.get i).release = true ↔
          ((t.rollers.get i).published = .releasing ∨ (t.rollers.get i).published = .released)))
      ∧ (∀ i, ((t.rollers.get i).published = .safe ∨ (t.rollers.get i).published = .disabling) → (t.slot.current.get i).enable = false)
      ∧ (∀ i, groupOfRoller t.tables.active i = none → (t.slot.current.get i).setpoint = 0)
      ∧ t = { s with slot := t.slot, rollers := t.rollers, groups := t.groups, tables := t.tables, trace := t.trace })
    ∧ (∀ (order : List (Fin 4)) (e k : Nat) (resync : Bool) (s : State),
        let takes := fun (g : Fin 4) (sp : State × Quad Int) => composeGroup g k (stepGroup g k sp.1, sp.2)
        let measured := (channelOrder order).foldl (fun u i => channelTakes k resync i u) (tableWork e s)
        let sp := takes 3 (takes 2 (takes 1 (takes 0
          ({ measured with slot := { measured.slot with buffers := Quad.all none } }, Quad.all 0))))
        let published := publish sp.2 sp.1
        acceptedCycle order e k resync s = formImage e (traceWork e published)
          ∧ RecordShows e published (traceRecordOf e published)
          ∧ (channelOrder order).Nodup ∧ ∀ i, i ∈ channelOrder order)
    ∧ (∀ (outs : Quad Int) (s : State),
        let t := publish outs s
        t = { s with slot := { s.slot with current := t.slot.current }, rollers := t.rollers }
          ∧ ∀ i, let r := s.rollers.get i
            let kept : Roller := { r with coup := { r.coup with prevSet := outs.get i }, published := r.seq.stage }
            t.slot.current.get i = {
                enable := match r.seq.stage with
                  | .enabling => r.seq.commanded
                  | .energised | .releasing | .released | .applying => true
                  | .safe | .disabling => false
                release := match r.seq.stage with
                  | .releasing | .released => true
                  | .safe | .enabling | .energised | .applying | .disabling => false
                setpoint := outs.get i }
              ∧ t.rollers.get i = if r.seq.stage = .released ∧ r.seq.held = .apply ∧ outs.get i = 0
                  ∧ r.chan.speed.natAbs ≤ s.tables.active.cell.standstill then
                { kept with seq := { stage := .applying, readyCount := 0, commanded := false, held := .none, timer := some 0 } } else kept)
    ∧ (∀ (k : Nat) (resync : Bool) (i : Fin 4) (s : State),
        let cfg := s.tables.active.rollers.get i
        let r := s.rollers.get i
        (s.slot.buffers.get i = none → channelTakes k resync i s = s)
        ∧ ∀ sm, s.slot.buffers.get i = some sm →
          let m := measure cfg s.tables.active.cell.cycleUs k resync sm r.chan
          let w := stageWork cfg.stageTimeout s.tables.active.cell.standstill k (if m.usable then some sm.status else none)
            (if m.fault then { r with
              chan := m.chan, seq := { stage := .safe, readyCount := 0, commanded := false, held := .none, timer := none } }
            else { r with chan := m.chan })
          let u : State := { s with rollers := s.rollers.set i w.1 }
          ((m.fault = false → w.2 = false → channelTakes k resync i s = u)
            ∧ ((m.fault = true ∨ w.2 = true) →
                (groupOfRoller s.tables.active i = none → channelTakes k resync i s = u)
                ∧ ∀ g, groupOfRoller s.tables.active i = some g → channelTakes k resync i s = groupFault g u)))
    ∧ ∀ (g : Fin 4) (k : Nat) (s : State) (outs : Quad Int),
        let x := s.groups.get g
        let force := groupForce s g
        let load := roadLoad (effective s.tables.active g) x.loadBlend x.speed
        let stepped := moveSpeed s.tables.active g k (force - load) { x with loadBlend := advanceBlend k x.loadBlend }
        let moved := groupTests g k { s with groups := s.groups.set g stepped }
        let y := moved.groups.get g
        let z : Group := { y with handed := { state := y.state, cause := y.cause, speed := y.speed, force := force, load := load } }
        stepGroup g k s = { moved with groups := moved.groups.set g z }
          ∧ (let errs := trackErrors g (advanceRefs g k s)
             let held := checkTrack g k s
             let comps := composedAll g k errs held
             composeGroup g k (s, outs) = (blendStep g k (keepAll g comps (markClamp g comps held)),
               Quad.of fun i => if isMember held.tables.active g i then (comps.get i).setpoint else outs.get i)
             ∧ ∀ i, comps.get i = composeMember held.tables.active g i k (held.groups.get g)
                 (decide ((held.groups.get g).state = .track)) (errs.get i) (held.rollers.get i))

/-! ## Line silence, line faults and hard faults -/

/-- Expiry of the line silence timer (01 R18): the timer stops, RING_LOST is set, the line fault event is raised once, a resync falls due,
and E keeps its value. The arrival timer and the ages of the requests in service have the rest of the silence time added, which is the
model's way of letting time pass (log 7). The line fault event (07 R127): every group that is not IDLE becomes FAULTED with v_g, r, blend
context, stop cause, wind-down mark, settle timer, blend position and direction cleared and its members SAFE without references; an IDLE
group and its members are untouched. -/
def Obligations.SilenceExpiryRaisesLineFault : Prop :=
  (∀ (s : State) (e n : Nat), s.lpu.opState = .active → s.lpu.ext = some e → s.lpu.silenceTimer = some n → s.store.restart = none →
     let left := (s.tables.active.cell.missLimit + 2) * s.tables.active.cell.cycleUs - n
     exec .lineSilenceExpiry s = .next (lineFault { s with
       lpu := { s.lpu with
         silenceTimer := none, resyncDue := true, arrivalTimer := s.lpu.arrivalTimer.map (· + left)
         flags := { s.lpu.flags with ringLost := true } }
       svc := ageEntries left s.svc }))
    ∧ (∀ s : State, OnlyMotion s (lineFault s)
         ∧ (∀ g, (s.groups.get g).state = .idle → (lineFault s).groups.get g = s.groups.get g)
         ∧ (∀ g, (s.groups.get g).state ≠ .idle → (lineFault s).groups.get g = { s.groups.get g with
             state := .faulted, cause := .none, windDown := false, settle := none, speed := 0, residue := 0, loadBlend := none
             blendPos := 0, dir := .none })
         ∧ ∀ i, (lineFault s).rollers.get i =
             if (groupOfRoller s.tables.active i).any (fun g => decide ((s.groups.get g).state ≠ .idle)) then
               { s.rollers.get i with
                 seq := { stage := .safe, readyCount := 0, commanded := false, held := .none, timer := none }
                 coup := { (s.rollers.get i).coup with reference := none } }
             else s.rollers.get i)

/-- A member's hard fault event at its group (07 R126): nothing in IDLE and FAULTED; every member forced SAFE and FAULTED in ENGAGING and
DISENGAGING; STOPPING with cause ROLLER_FAULT, v_g kept and r 0, in HOLD, FOLLOW and TRACK while a member is RELEASED, FAULTED at once
when none is; the cause changed in STOPPING; in a wind-down the group FAULTED once every member is SAFE (07 R124). From HOLD, FOLLOW and
TRACK the members' references are discarded, b is 0 and the direction none (05 R86; outside TRACK a run holds none of them anyway). Other
groups, rollers that are no members, and everything else of a member stay as they are. -/
def Obligations.HardFaultActsByGroupState : Prop :=
  ∀ (s : State) (g : Fin 4),
    let x := s.groups.get g
    let t := groupFault g s
    let faulted := fun (y : Group) => { y with state := .faulted, cause := .none, windDown := false, settle := none, speed := 0, residue := 0 }
    let member := fun (i : Fin 4) => isMember s.tables.active g i = true
    OnlyMotion s t
      ∧ (∀ h, h ≠ g → t.groups.get h = s.groups.get h) ∧ (∀ i, ¬ member i → t.rollers.get i = s.rollers.get i)
      ∧ ((x.state = .idle ∨ x.state = .faulted) → t = s)
      ∧ ((x.state = .engaging ∨ x.state = .disengaging) →
          t.groups.get g = faulted x
          ∧ ∀ i, member i → t.rollers.get i = { s.rollers.get i with
              seq := { stage := .safe, readyCount := 0, commanded := false, held := .none, timer := none } })
      ∧ ((x.state = .hold ∨ x.state = .follow ∨ x.state = .track) →
          (∀ i, member i → t.rollers.get i = { s.rollers.get i with coup := { (s.rollers.get i).coup with reference := none } })
          ∧ (anyMember s g isReleased = true → t.groups.get g = { x with
              state := .stopping, cause := .rollerFault, windDown := false, settle := none, residue := 0, blendPos := 0, dir := .none })
          ∧ (anyMember s g isReleased = false → t.groups.get g = faulted { x with blendPos := 0, dir := .none }))
      ∧ (x.state = .stopping → x.windDown = false →
          (anyMember s g isReleased = true → t = { s with groups := s.groups.set g { x with cause := .rollerFault } })
          ∧ (anyMember s g isReleased = false → t = { s with groups := s.groups.set g (faulted x) }))
      ∧ (x.state = .stopping → x.windDown = true →
          ((∀ i, member i → (s.rollers.get i).seq.stage = .safe) → t = { s with groups := s.groups.set g (faulted x) })
          ∧ ((∃ i, member i ∧ (s.rollers.get i).seq.stage ≠ .safe) → t = s))
      ∧ (anyMember s g isReleased = true ↔ ∃ i, (s.tables.active.rollers.get i).group = some g.val ∧ (s.rollers.get i).seq.stage = .released)

/-- Expiry of a stage timer (06 R108): SEQ_TIMEOUT set and latched, the stage forced SAFE with nothing under way, and one hard fault event
to the roller's group (03 R54). Expiry of the settle timer (07 R125): every member forced SAFE with nothing latched, SETTLE_TIMEOUT set,
the group FAULTED with v_g and r 0, no stop cause, no wind-down mark and no timer. The spec's events are inside an accepted cycle; that
each row can be sent alone is the model's choice (log 5). -/
def Obligations.TimersExpireToSafe : Prop :=
  (∀ (s : State) (i : Fin 4) (n : Nat), s.lpu.opState = .active → (s.rollers.get i).seq.timer = some n →
     let r := s.rollers.get i
     let s1 := s.onRoller i fun _ => { r with
       seq := { stage := .safe, readyCount := 0, commanded := false, held := .none, timer := none }
       chan := { r.chan with
         latch := { r.chan.latch with seqTimeout := true }, flags := { r.chan.flags with seqTimeout := true } } }
     (∀ g, groupOfRoller s.tables.active i = some g → exec (.stageTimerExpiry i) s = .next (groupFault g s1))
       ∧ (groupOfRoller s.tables.active i = none → exec (.stageTimerExpiry i) s = .next s1))
    ∧ (∀ (s : State) (g : Fin 4) (n : Nat), s.lpu.opState = .active → (s.groups.get g).state = .stopping → (s.groups.get g).settle = some n →
         exec (.settleTimerExpiry g) s = .next { s with
           rollers := s.rollers.mapIdx fun i r => if isMember s.tables.active g i then
               { r with seq := { stage := .safe, readyCount := 0, commanded := false, held := .none, timer := none } } else r
           groups := s.groups.set g { s.groups.get g with
             state := .faulted, cause := .none, windDown := false, settle := none, speed := 0, residue := 0
             flags := { (s.groups.get g).flags with settleTimeout := true } } })

/-! ## Measurement, sequencing, simulation, coupling -/

/-- A stale sample (03 R41, R42): nothing but the held-cycle count moves, which stops at 65,535, and SAMPLE_STALE is raised exactly when
it passes the limit. W is read first: the window keeps its newest W entries (03 R38). A fresh sample with the baseline unset is the
baseline and accumulates nothing (03 R44); a resync sample is the baseline whatever its stamp and empties the window (03 R53). A fresh
sample with a baseline (03 R43, R45 to R47, R49 to R52): beyond jump_limit times the span the count becomes the baseline with COUNT_JUMP
raised and nothing accumulated; otherwise the distance of the increment is added, the entry with its span appended, the oldest removed
beyond W, and the speed is the window's distance over its time. The force is clamped to force_limit with FORCE_SAT set where it acts; FAULT
raises DRIVE_FAULT. -/
def Obligations.SamplesHandled : Prop :=
  ∀ (cfg : RollersEntry) (t k : Nat) (sm : Sample) (ch : Channel),
    let trimmed := ch.window.drop (ch.window.length - cfg.window)
    let reference := fun (window : List Increment) => ({
      chan := { ch with
        lastStamp := some sm.stamp, lastStatus := some sm.status, held := 0, baseline := some sm.count, window := window
        force := max (-(cfg.forceLimit : Int)) (min sm.force cfg.forceLimit)
        latch := { ch.latch with driveFault := ch.latch.driveFault || sm.status.fault }
        flags := { ch.flags with
          driveFault := ch.flags.driveFault || sm.status.fault
          forceSat := ch.flags.forceSat || decide (cfg.forceLimit < sm.force.natAbs) } }
      fault := sm.status.fault, usable := true } : Measured)
    (ch.lastStamp = some sm.stamp →
      let c := min 65535 (ch.held + k)
      let raised := decide (ch.held ≤ cfg.sampleMissLimit) && decide (cfg.sampleMissLimit < c)
      measure cfg t k false sm ch = {
        chan := { ch with
          window := trimmed, held := c
          latch := { ch.latch with sampleStale := ch.latch.sampleStale || raised }
          flags := { ch.flags with sampleStale := ch.flags.sampleStale || raised } }
        fault := raised, usable := false })
    ∧ measure cfg t k true sm ch = reference []
    ∧ (ch.lastStamp ≠ some sm.stamp → ch.baseline = none → measure cfg t k false sm ch = reference trimmed)
    ∧ (∀ b : BitVec 32, ch.lastStamp ≠ some sm.stamp → ch.baseline = some b →
         let m := measure cfg t k false sm ch
         let n := ch.held + k
         let dc := (sm.count - b).toInt * cfg.direction
         let jump := decide (cfg.jumpLimit * n < dc.natAbs)
         let dd := (dc * cfg.scale + ch.fraction) / 65536
         let appended := trimmed ++ [{ distance := dd, cycles := n }]
         m.usable = true ∧ m.fault = (jump || sm.status.fault)
           ∧ m.chan.lastStamp = some sm.stamp ∧ m.chan.lastStatus = some sm.status ∧ m.chan.held = 0 ∧ m.chan.baseline = some sm.count
           ∧ m.chan.force = max (-(cfg.forceLimit : Int)) (min sm.force cfg.forceLimit)
           ∧ m.chan.flags.forceSat = (ch.flags.forceSat || decide (cfg.forceLimit < sm.force.natAbs))
           ∧ m.chan.flags.countJump = (ch.flags.countJump || jump) ∧ m.chan.latch.countJump = (ch.latch.countJump || jump)
           ∧ m.chan.flags.driveFault = (ch.flags.driveFault || sm.status.fault)
           ∧ m.chan.latch.driveFault = (ch.latch.driveFault || sm.status.fault)
           ∧ (jump = true → m.chan.distance = ch.distance ∧ m.chan.fraction = ch.fraction ∧ m.chan.speed = ch.speed
               ∧ m.chan.window = trimmed)
           ∧ (jump = false → m.chan.distance = Int.bmod (ch.distance + dd) (2 ^ 64)
               ∧ (m.chan.fraction : Int) = (dc * cfg.scale + ch.fraction) % 65536
               ∧ m.chan.window = appended.drop (appended.length - cfg.window)
               ∧ m.chan.speed = roundHalfAway (m.chan.window.map (·.distance)).sum ((m.chan.window.map (·.cycles)).sum * t)))

/-- Distance is kept exactly (03 R47): one increment that passes the jump check becomes ΔD = floor(total ÷ 65,536), added to D in 64 bits
(R48), and the fraction f = total − ΔD × 65,536 in 0..65,535, with the count as the new baseline and the total within signed 64 bits; over
any run of increments D × 65,536 + f grows by the increments times the scale; and every step keeps every roller's fraction within
0..65,535. -/
def Obligations.DistanceKeptExactly : Prop :=
  (∀ (cfg : RollersEntry) (t n : Nat) (count : BitVec 32) (dc : Int) (ch : Channel), ch.fraction < 65536 →
     let total := dc * (cfg.scale : Int) + (ch.fraction : Int)
     let c := accumulate cfg t n count dc ch
     let f : Int := c.fraction
     let dd : Int := (total - f) / 65536
     c.baseline = some count ∧ 0 ≤ f ∧ f < 65536 ∧ dd * 65536 + f = total
       ∧ c.distance = Int.bmod (ch.distance + dd) (2 ^ 64)
       ∧ (dc.natAbs ≤ 2 ^ 31 → cfg.scale < 2 ^ 32 → total.natAbs < 2 ^ 63))
    ∧ (∀ (cfg : RollersEntry) (t : Nat) (l : List (Nat × BitVec 32 × Int)) (ch : Channel), ch.fraction < 65536 →
         let last := l.foldl (fun c x => accumulate cfg t x.1 x.2.1 x.2.2 c) ch
         last.fraction < 65536
           ∧ ((last.distance * 65536 + (last.fraction : Int)) - (ch.distance * 65536 + (ch.fraction : Int)) - (l.map fun x => x.2.2 * (cfg.scale : Int)).sum)
               % (2 ^ 64 * 65536) = 0)
    ∧ (∀ s t : State, FractionOk s → step s = .next t → FractionOk t)

/-- The acknowledgement check (06 R106): what each stage requires and forbids of a fresh sample's status; a status that fails it raises
DRIVE_FAULT, latches it and forces SAFE. The order of brake and enable (06, Order of brake and enable; R96 to R105): the stage work of a
cycle moves a roller forward along the sequence by one stage or forces it SAFE; RELEASING is entered only within the standstill band,
APPLYING only so and with a previous setpoint of 0, DISABLING only on a sample with the brake shut and the stage energised. In ENABLING a
fresh READY sample adds one to the ready count, whose reaching 2 commands the enable, and one without READY makes it 0 (R100). The
acknowledgements: with the enable commanded ENABLED gives ENERGISED, BRAKE_OPEN gives RELEASED with no timer, its clearing in APPLYING gives
DISABLING, and ENABLED clear in DISABLING gives SAFE; a sample without the indication leaves the roller as it is (R101, R103, R105). A held
release moves ENERGISED to RELEASING within the band, and a held apply RELEASED to APPLYING within it at a previous setpoint of 0, and not
before (R102, R104). A stage that runs a timer is entered with it at 0 (R107). That ENERGISED, RELEASING, RELEASED, APPLYING, DISABLING and
the SAFE of an acknowledged disable are entered with ready count 0 and the enable not commanded is the model's choice (log 31): 06 Section
6.1 says that both have meaning only in ENABLING; forced SAFE sets them so by R109. The three steps of the stage work stand in their order
(R98): the timer advances by k only in a stage that this work has not entered, stops at 65,535, and expires at or above the timeout with
SEQ_TIMEOUT latched and SAFE forced (R107, R108). -/
def Obligations.StageWorkFollowsOrder : Prop :=
  (∀ (x : Status) (r : Roller),
     let ok := match r.seq.stage with
       | .safe => True
       | .enabling => x.brakeOpen = false
       | .energised => x.enabled = true ∧ x.brakeOpen = false
       | .releasing => x.enabled = true
       | .released => x.enabled = true ∧ x.brakeOpen = true
       | .applying => x.enabled = true
       | .disabling => x.brakeOpen = false
     (ackOk r.seq.stage x = true ↔ ok)
       ∧ (¬ ok → sampleStep x r = ({ r with
           seq := { stage := .safe, readyCount := 0, commanded := false, held := .none, timer := none }
           chan := { r.chan with
             latch := { r.chan.latch with driveFault := true }, flags := { r.chan.flags with driveFault := true } } }, true, true)))
    ∧ (∀ (timeout band k : Nat) (x : Option Status) (r : Roller),
         let q := (stageWork timeout band k x r).1.seq.stage
         (q = .enabling → r.seq.stage = .enabling)
           ∧ (q = .energised → r.seq.stage = .energised ∨ (r.seq.stage = .enabling ∧ r.seq.commanded = true ∧ ∃ st, x = some st ∧ st.enabled = true))
           ∧ (q = .releasing → r.seq.stage = .releasing ∨ (r.seq.stage = .energised ∧ r.seq.held = .release ∧ r.chan.speed.natAbs ≤ band))
           ∧ (q = .released → r.seq.stage = .released ∨ (r.seq.stage = .releasing ∧ ∃ st, x = some st ∧ st.brakeOpen = true))
           ∧ (q = .applying → r.seq.stage = .applying
               ∨ (r.seq.stage = .released ∧ r.seq.held = .apply ∧ r.coup.prevSet = 0 ∧ r.chan.speed.natAbs ≤ band))
           ∧ (q = .disabling → r.seq.stage = .disabling
               ∨ (r.seq.stage = .applying ∧ ∃ st, x = some st ∧ st.brakeOpen = false ∧ st.enabled = true)))
    ∧ (∀ (x : Status) (r : Roller), ackOk r.seq.stage x = true →
         let enters := fun (st : Stage) (timer : Option Nat) => sampleStep x r
           = ({ r with seq := { stage := st, readyCount := 0, commanded := false, held := .none, timer := timer } }, false, true)
         let stays := sampleStep x r = (r, false, false)
         (r.seq.stage = .enabling → r.seq.commanded = true → (x.enabled = true → enters .energised (some 0)) ∧ (x.enabled = false → stays))
           ∧ (r.seq.stage = .releasing → (x.brakeOpen = true → enters .released none) ∧ (x.brakeOpen = false → stays))
           ∧ (r.seq.stage = .applying → (x.brakeOpen = false → enters .disabling (some 0)) ∧ (x.brakeOpen = true → stays))
           ∧ (r.seq.stage = .disabling → (x.enabled = false → enters .safe none) ∧ (x.enabled = true → stays))
           ∧ ((r.seq.stage = .safe ∨ r.seq.stage = .energised ∨ r.seq.stage = .released) → stays))
    ∧ (∀ (band : Nat) (r : Roller),
         let enters := fun (st : Stage) => testHeld band r
           = { r with seq := { stage := st, readyCount := 0, commanded := false, held := .none, timer := some 0 } }
         let release := r.seq.stage = .energised ∧ r.seq.held = .release ∧ r.chan.speed.natAbs ≤ band
         let apply := r.seq.stage = .released ∧ r.seq.held = .apply ∧ r.coup.prevSet = 0 ∧ r.chan.speed.natAbs ≤ band
         (release → enters .releasing) ∧ (apply → enters .applying) ∧ (¬ release → ¬ apply → testHeld band r = r))
    ∧ (∀ (x : Status) (r : Roller), r.seq.stage = .enabling → r.seq.commanded = false → x.brakeOpen = false → x.fault = false →
         (x.ready = true → sampleStep x r = ({ r with seq := { r.seq with
             readyCount := r.seq.readyCount + 1, commanded := decide (r.seq.readyCount + 1 = 2) } }, false, false))
         ∧ (x.ready = false → sampleStep x r = ({ r with seq := { r.seq with readyCount := 0 } }, false, false)))
    ∧ (∀ (timeout band k : Nat) (x : Option Status) (r : Roller),
         let a := match x with
           | some st => sampleStep st r
           | none => (r, false, false)
         let b := testHeld band a.1
         ((a.2.2 = true ∨ b.seq.stage ≠ a.1.seq.stage ∨ b.seq.timer = none) → stageWork timeout band k x r = (b, a.2.1))
           ∧ ∀ n, a.2.2 = false → b.seq.stage = a.1.seq.stage → b.seq.timer = some n →
             (min 65535 (n + k) < timeout → stageWork timeout band k x r
               = ({ b with seq := { b.seq with timer := some (min 65535 (n + k)) } }, a.2.1))
             ∧ (timeout ≤ min 65535 (n + k) → stageWork timeout band k x r = ({ b with
                 seq := { stage := .safe, readyCount := 0, commanded := false, held := .none, timer := none }
                 chan := { b.chan with
                   latch := { b.chan.latch with seqTimeout := true }, flags := { b.chan.flags with seqTimeout := true } } }, true)))

/-- Road load (04 R60 to R62): the two forms of its magnitude, which meet at v_creep, with 0 at standstill and the bounds that hold of
every entry the entry check passes; with the sign of v_g it is 0 at standstill and reverses with the direction of travel. A step forms it
from the effective coefficients, those of the LOADS entry that the group's load set names (04 R57), at the speed before the step, and forms
the group force F_g as the sum of the forces of the members that are RELEASED (04 R59). -/
def Obligations.RoadLoadOpposesMotion : Prop :=
  (∀ c : LoadsEntry,
     (∀ s : Nat, c.vCreep ≤ s → roadMagnitude c s = (2 * (c.a * 10 ^ 9 + c.b * s * 10 ^ 4 + c.c * s ^ 2) + 10 ^ 9) / (2 * 10 ^ 9))
       ∧ (∀ s : Nat, s < c.vCreep → roadMagnitude c s
           = (2 * (c.a * 10 ^ 9 * s + (c.b * s * 10 ^ 4 + c.c * s ^ 2) * c.vCreep) + 10 ^ 9 * c.vCreep) / (2 * (10 ^ 9 * c.vCreep)))
       ∧ (0 < c.vCreep → roadMagnitude c 0 = 0
           ∧ roundHalfUp (c.a * 10 ^ 9 * c.vCreep + (c.b * c.vCreep * 10 ^ 4 + c.c * c.vCreep ^ 2) * c.vCreep) (10 ^ 9 * c.vCreep)
             = roadMagnitude c c.vCreep)
       ∧ (loadsCheck c = true →
           (∀ s : Nat, s ≤ 70000 → roadMagnitude c s ≤ 365000)
           ∧ ∀ s : Nat, s < c.vCreep → c.a * 10 ^ 9 * s + (c.b * s * 10 ^ 4 + c.c * s ^ 2) * c.vCreep < 110000000000000000)
       ∧ (∀ v : Int, signedLoad c (-v) = -signedLoad c v) ∧ signedLoad c 0 = 0
       ∧ (∀ v : Int, 0 < v → signedLoad c v = roadMagnitude c v.natAbs))
    ∧ (∀ (s : State) (g : Fin 4) (k : Nat),
         ((stepGroup g k s).groups.get g).handed.load = roadLoad (effective s.tables.active g) (s.groups.get g).loadBlend (s.groups.get g).speed
           ∧ ((stepGroup g k s).groups.get g).handed.force = groupForce s g
           ∧ groupForce s g = Finset.univ.sum (fun i : Fin 4 =>
               if (s.tables.active.rollers.get i).group = some g.val ∧ (s.rollers.get i).seq.stage = .released then
                 (s.rollers.get i).chan.force else 0)
           ∧ (∀ n : Fin 8, (s.tables.active.groups.get g).loadSet = n.val → effective s.tables.active g = s.tables.active.loads.get n)
           ∧ ∀ (c : LoadsEntry) (v : Int), roadLoad c none v = signedLoad c v)

/-- A load blend (04 R63, R64): F_rl is round half away ((F_old × (n − j) + F_new × j) ÷ n) at position j of length n, so at position 0 the
old load exactly and always between the old and the new load; the position advances by k after it is used, and the context ends when it
reaches its length. Round half away gives the nearest integer, and of two as near the one farther from zero (00, Arithmetic and rounding).
That the row LOAD_BLEND_END sent alone in ACTIVE discards a context at any position is the model's choice (log 5). -/
def Obligations.LoadBlendRunsBetweenCurves : Prop :=
  (∀ (eff : LoadsEntry) (b : LoadBlend) (v : Int), 0 < b.len → b.pos ≤ b.len →
      let f := roadLoad eff (some b) v
      let o := signedLoad b.old v
      let n := signedLoad eff v
      f = roundHalfAway (o * ((b.len : Int) - b.pos) + n * b.pos) b.len ∧ min o n ≤ f ∧ f ≤ max o n ∧ (b.pos = 0 → f = o))
    ∧ (∀ (n : Int) (d : Nat), 0 < d →
        let miss := (2 * (roundHalfAway n d * d - n)).natAbs
        miss ≤ d ∧ (miss = d → n.natAbs ≤ (roundHalfAway n d).natAbs * d))
    ∧ (∀ (k : Nat) (b : LoadBlend), advanceBlend k (some b) = if b.len ≤ b.pos + k then none else some { b with pos := b.pos + k })
    ∧ ∀ (s : State) (g : Fin 4), s.lpu.opState = .active →
      exec (.loadBlendEnd g) s = .next { s with groups := s.groups.set g { s.groups.get g with loadBlend := none } }

/-- Integration (04 R67 to R69): without a clamp the impulse F_net × k × T plus the old residue is exactly 10⁴ × m times the change of v_g
plus the new residue, which lies in 0..10⁴ × m − 1; beyond vmax_g the speed is clamped, the residue is 0 and SIM_SAT is set. In STOPPING
the speed moves toward 0 by the stopping step, without overshoot, and r is 0 (04 R71); in every other state both are 0 (04 R72). vmax_g is
the smallest vmax and d_stop_min the smallest d_stop among the members (04 R57). That a speed above a lowered vmax_g is not clamped at a
step whose new speed lies within it is the model's choice (log 41; R69 says both). -/
def Obligations.IntegrationConservesImpulse : Prop :=
  (∀ (fnet : Int) (k t mass vmax : Nat) (g : Group), 0 < mass →
     let x := integrate fnet k t mass vmax g
     let v := g.speed + (fnet * (k * t : Nat) + g.residue) / ((10000 * mass : Nat) : Int)
     (v.natAbs ≤ vmax →
         fnet * (k * t : Nat) + g.residue = (10000 * mass : Nat) * (x.speed - g.speed) + x.residue
           ∧ 0 ≤ x.residue ∧ x.residue < (10000 * mass : Nat) ∧ x = { g with speed := v, residue := x.residue })
       ∧ (vmax < v.natAbs → x.speed.natAbs = vmax ∧ (0 < v → x.speed = vmax) ∧ (v < 0 → x.speed = -vmax) ∧ x.residue = 0
           ∧ x.flags.simSat = true))
    ∧ (∀ (t : Tables) (g : Fin 4) (k : Nat) (fnet : Int) (x : Group),
         (x.state = .stopping → ∃ v : Int, moveSpeed t g k fnet x = { x with speed := v, residue := 0 }
             ∧ (x.speed.natAbs ≤ max 1 (dStopMin t g * k * t.cell.cycleUs / 1000000) → v = 0)
             ∧ (max 1 (dStopMin t g * k * t.cell.cycleUs / 1000000) < x.speed.natAbs →
                 v.natAbs + max 1 (dStopMin t g * k * t.cell.cycleUs / 1000000) = x.speed.natAbs ∧ (0 < v ↔ 0 < x.speed)))
           ∧ ((x.state = .follow ∨ x.state = .track) →
               moveSpeed t g k fnet x = integrate fnet k t.cell.cycleUs (t.groups.get g).mass (vmaxOf t g) x)
           ∧ ((x.state = .idle ∨ x.state = .engaging ∨ x.state = .hold ∨ x.state = .disengaging ∨ x.state = .faulted) →
               moveSpeed t g k fnet x = { x with speed := 0, residue := 0 })
           ∧ ((∃ i, (t.rollers.get i).group = some g.val) →
               ((∀ i, (t.rollers.get i).group = some g.val → vmaxOf t g ≤ (t.rollers.get i).vmax ∧ dStopMin t g ≤ (t.rollers.get i).dStop)
               ∧ (∃ i, (t.rollers.get i).group = some g.val ∧ vmaxOf t g = (t.rollers.get i).vmax)
               ∧ ∃ i, (t.rollers.get i).group = some g.val ∧ dStopMin t g = (t.rollers.get i).dStop)))

/-- For every group 0 ≤ r < 10⁴ × m in ACTIVE, with m the active mass, and r = 0 outside it (04 R68, R76). -/
def Obligations.ResiduesKeptByEveryStep : Prop :=
  let ok (s : State) : Prop := ∀ g,
    (s.lpu.opState = .active → 0 < (s.tables.active.groups.get g).mass ∧ 0 ≤ (s.groups.get g).residue
        ∧ (s.groups.get g).residue < (10000 * (s.tables.active.groups.get g).mass : Nat))
      ∧ (s.lpu.opState ≠ .active → (s.groups.get g).residue = 0)
  ok State.reset ∧ ∀ s t : State, ok s → step s = .next t → ok t

/-- The setpoint of a RELEASED member (05 R78, R88 to R90) lies between the clamped sum and the previous setpoint, differs from it by at
most the step of its rate, and never exceeds both vmax and the previous magnitude: it is the clamped sum where that is no farther than one
step away, and otherwise the previous setpoint moved by exactly one step toward it. Every other member gets 0 (05 R91). SET_SAT is set
exactly where the clamp changes the sum of a RELEASED member, and nothing else is touched (05 R88). -/
def Obligations.SetpointsLimited : Prop :=
  (∀ (s : State) (g : Fin 4) (comps : Quad Composed),
    let acts := ∃ i, (s.tables.active.rollers.get i).group = some g.val ∧ (s.rollers.get i).seq.stage = .released
      ∧ (s.tables.active.rollers.get i).vmax < (comps.get i).sum.natAbs
    let x := s.groups.get g
    (acts → markClamp g comps s = { s with groups := s.groups.set g { x with flags := { x.flags with setSat := true } } })
      ∧ (¬ acts → markClamp g comps s = s))
  ∧ ∀ (t : Tables) (g i : Fin 4) (k : Nat) (x : Group) (corrects : Bool) (err : Option Int) (r : Roller),
    let cfg := t.rollers.get i
    let c := composeMember t g i k x corrects err r
    let a := if x.state = .stopping then cfg.dStop else cfg.aMax
    let step := max 1 (a * k * t.cell.cycleUs / 1000000)
    let s : Int := max (-(cfg.vmax : Int)) (min c.sum cfg.vmax)
    c.base = x.speed + roundHalfAway (x.speed * cfg.trim) 1000000
      ∧ (r.seq.stage ≠ .released → c.setpoint = 0)
      ∧ (r.seq.stage = .released →
          (c.setpoint - r.coup.prevSet).natAbs ≤ step ∧ c.setpoint.natAbs ≤ max cfg.vmax r.coup.prevSet.natAbs
            ∧ min s r.coup.prevSet ≤ c.setpoint ∧ c.setpoint ≤ max s r.coup.prevSet
            ∧ ((s - r.coup.prevSet).natAbs ≤ step → c.setpoint = s)
            ∧ (r.coup.prevSet + step < s → c.setpoint = r.coup.prevSet + step)
            ∧ (s + step < r.coup.prevSet → c.setpoint = r.coup.prevSet - step))

/-- The track correction (05 R84): three steps, the clamp before the blend, so that it never exceeds its rounded share of corr_max, which
is corr_max × b ÷ N_t rounded half away as the third step rounds, nor corr_max itself. A member of a
group in TRACK has its correction added to its base speed; in every other state there is no error and no correction. -/
def Obligations.CorrectionStaysInShare : Prop :=
  (∀ (x : GroupsEntry) (b : Nat) (e : Int), 0 < x.trackBlend → b ≤ x.trackBlend →
     correction x b e
         = roundHalfAway (max (-(x.corrMax : Int)) (min (roundHalfAway (x.kp * e) 1000000000) x.corrMax) * b) x.trackBlend
       ∧ (correction x b e).natAbs ≤ (2 * (x.corrMax * b) + x.trackBlend) / (2 * x.trackBlend)
       ∧ (correction x b e).natAbs ≤ x.corrMax ∧ (b = 0 → correction x b e = 0) ∧ (0 ≤ e → 0 ≤ correction x b e))
    ∧ (∀ (g : Fin 4) (k : Nat) (errs : Quad (Option Int)) (s : State),
         let x := s.groups.get g
         (x.state ≠ .track → trackErrors g s = Quad.all none
             ∧ ∀ i, ((composedAll g k errs s).get i).sum = ((composedAll g k errs s).get i).base)
           ∧ (x.state = .track → ∀ i e, errs.get i = some e →
             ((composedAll g k errs s).get i).sum
               = ((composedAll g k errs s).get i).base + correction (s.tables.active.groups.get g) x.blendPos e)
           ∧ ∀ (y : GroupsEntry) (b : Nat) (e : Int), groupsCheck y = true → e.natAbs ≤ y.slipLimit * 1000000 → b ≤ y.trackBlend →
             ((y.kp = 0 ∨ y.corrMax = 0 ∨ b = 0) → correction y b e = 0)
               ∧ (y.kp * e).natAbs ≤ 40000000000000
               ∧ (max (-(y.corrMax : Int)) (min (roundHalfAway (y.kp * e) 1000000000) y.corrMax) * b).natAbs ≤ 5000 * 4096 ∧ (e ≤ 0 → correction y b e ≤ 0))

/-- The track error of a member of a group in TRACK is e_i = R_i − D_i, with the reference as this composition has advanced it, and is kept
for the member, none for a member without a reference (05 R82, R79). While every error lies within the group's slip limit the group stays in
TRACK, or returns to FOLLOW where its blend out ends at this composition (05 R85), and keeps its flags; where one exceeds it the group is in
STOPPING with cause TRACK_LOST and TRACK_LOST set, v_g kept and r 0, its members' references discarded. So after its composition no member
of a group in TRACK has an error beyond the limit. -/
def Obligations.TrackStaysWithinSlip : Prop :=
  ∀ (g : Fin 4) (k : Nat) (sp : State × Quad Int),
    let s := sp.1
    let x := s.groups.get g
    let t := (composeGroup g k sp).1
    let y := t.groups.get g
    let member := fun (i : Fin 4) => (s.tables.active.rollers.get i).group = some g.val
    let error := fun (i : Fin 4) =>
      ((advanceRefs g k s).rollers.get i).coup.reference.map fun ref => ref - (s.rollers.get i).chan.distance
    let limit := (s.tables.active.groups.get g).slipLimit * 1000000
    let lost := ∃ i e, member i ∧ error i = some e ∧ limit < e.natAbs
    (y.state = .track → ∀ i ref, isMember t.tables.active g i = true → (t.rollers.get i).coup.reference = some ref →
        (ref - (t.rollers.get i).chan.distance).natAbs ≤ (t.tables.active.groups.get g).slipLimit * 1000000)
      ∧ (x.state = .track →
        (∀ i, member i → (t.rollers.get i).coup.error = error i)
        ∧ (¬ lost → y.state = (if x.dir = .outward ∧ x.blendPos ≤ k then .follow else .track)
            ∧ y.cause = x.cause ∧ y.flags.trackLost = x.flags.trackLost ∧ y.speed = x.speed ∧ y.residue = x.residue)
        ∧ (lost → y.state = .stopping ∧ y.cause = .trackLost ∧ y.flags.trackLost = true ∧ y.residue = 0 ∧ y.speed = x.speed
            ∧ y.blendPos = 0 ∧ y.dir = .none ∧ y.settle = none ∧ ∀ i, member i → (t.rollers.get i).coup.reference = none))

/-- Tracking through a composition (05 R79, R81, R85, R87). The references of a group in TRACK advance by the previous base speed over
k × T, exactly within signed 64 bits; each member keeps its base speed, its distance and its error. Then the blend position moves by k: up
to N_t in IN, where STEADY follows, down to 0 in OUT, where tracking ends: the members' references are discarded, the direction is none and
the group is in FOLLOW with v_g and r kept. A change of N_t adjusts position and direction at its application. That the rows of the two
ends can be sent alone is the model's choice (log 5). -/
def Obligations.TrackBlendEnds : Prop :=
  (∀ (s : State) (g : Fin 4), s.lpu.opState = .active → (s.groups.get g).state = .track →
    ((s.groups.get g).dir = .inward → exec (.trackBlendInEnd g) s = .next { s with
      groups := s.groups.set g { s.groups.get g with
        blendPos := (s.tables.active.groups.get g).trackBlend, dir := .steady } })
    ∧ ((s.groups.get g).dir = .outward → exec (.trackBlendOutEnd g) s = .next { s with
      groups := s.groups.set g { s.groups.get g with state := .follow, blendPos := 0, dir := .none }
      rollers := s.rollers.mapIdx fun i r => if isMember s.tables.active g i then
          { r with coup := { r.coup with reference := none } } else r }))
    ∧ (∀ (s : State) (g : Fin 4) (k : Nat),
        let x := s.groups.get g
        let nt := (s.tables.active.groups.get g).trackBlend
        let b := min (x.blendPos + k) nt
        (x.state ≠ .track → blendStep g k s = s ∧ advanceRefs g k s = s)
        ∧ (x.state = .track →
          (x.dir = .inward → blendStep g k s = { s with
            groups := s.groups.set g { x with blendPos := b, dir := if b = nt then .steady else .inward } })
          ∧ (x.dir = .steady → blendStep g k s = s)
          ∧ (x.dir = .outward → k < x.blendPos → blendStep g k s = { s with
            groups := s.groups.set g { x with blendPos := x.blendPos - k } })
          ∧ (x.dir = .outward → x.blendPos ≤ k → blendStep g k s = { s with
            groups := s.groups.set g { x with state := .follow, blendPos := 0, dir := .none }
            rollers := s.rollers.mapIdx fun i r => if isMember s.tables.active g i then
                { r with coup := { r.coup with reference := none } } else r })
          ∧ ∀ i, let r := s.rollers.get i
              (isMember s.tables.active g i = false → (advanceRefs g k s).rollers.get i = r)
              ∧ (isMember s.tables.active g i = true →
                  (r.coup.reference = none → (advanceRefs g k s).rollers.get i = r)
                  ∧ ∀ ref, r.coup.reference = some ref →
                    let dest := ref + r.coup.prevBase * k * s.tables.active.cell.cycleUs
                    dest ≤ 9223372036854775807 → -9223372036854775808 ≤ dest →
                    (advanceRefs g k s).rollers.get i = { r with coup := { r.coup with reference := some dest } })))
    ∧ (∀ (s : State) (g : Fin 4) (comps : Quad Composed),
        keepAll g comps s = { s with rollers := (keepAll g comps s).rollers }
        ∧ ∀ i, (keepAll g comps s).rollers.get i =
            let r := s.rollers.get i
            if isMember s.tables.active g i then { r with coup := { r.coup with
              prevBase := (comps.get i).base, composed := r.chan.distance, error := (comps.get i).error } } else r)
    ∧ ∀ (s : State) (g : Fin 4) (new : Tables) (blend : Option Nat),
        let x := s.groups.get g
        let y := (applyTables new blend s).groups.get g
        let nt := (new.groups.get g).trackBlend
        ((s.tables.active.groups.get g).trackBlend = nt → y.blendPos = x.blendPos ∧ y.dir = x.dir)
        ∧ ((s.tables.active.groups.get g).trackBlend ≠ nt →
          (x.dir = .inward → y.blendPos = min x.blendPos nt ∧ y.dir = if min x.blendPos nt = nt then .steady else .inward)
          ∧ (x.dir = .steady → y.blendPos = nt ∧ y.dir = .steady)
          ∧ (x.dir = .outward → y.blendPos = min x.blendPos nt ∧ y.dir = .outward)
          ∧ (x.dir = .none → y.blendPos = x.blendPos ∧ y.dir = .none))

/-- Every set the part holds carries RELEASE for a roller only together with ENABLE (05 R92): every step keeps it. -/
def Obligations.ReleaseNeverWithoutEnable : Prop :=
  ∀ s t : State, CommandsOk s → step s = .next t → CommandsOk t

/-- A group's own tests within its step, in their order (07 R114): none without members; the completion of a stop, to HOLD with cause
REQUEST or TRACK_LOST, to the wind-down with apply directions under ROLLER_FAULT (R123); the settle timer that starts, advances and expires,
and in a wind-down stops once no member is RELEASED (R125); the end of a wind-down with every member SAFE (R124); the release test and the
HOLD test on published stages (R117; 06 R102); and the end of a disengage (R121). The settle limit is the largest stage_timeout among the
members (R125). That the settle timer starts at a stop which completes under ROLLER_FAULT at the step that brings v_g to 0 is the model's
choice (log 17), and so is that the moves to APPLYING, at the completion of a stop, and to RELEASING, at the release test, leave ready count
0 and the enable not commanded (log 31): 06 Section 6.1 gives both a meaning in ENABLING alone. -/
def Obligations.GroupTestsFollowTheirTable : Prop :=
  ∀ (s : State) (g : Fin 4) (k : Nat),
    let x := s.groups.get g
    let t := groupTests g k s
    let band := s.tables.active.cell.standstill
    let put := fun (y : Group) => { s with groups := s.groups.set g y }
    let faulted : Group := { x with state := .faulted, cause := .none, windDown := false, settle := none, speed := 0, residue := 0 }
    let allSafe := ∀ i, isMember s.tables.active g i = true → (s.rollers.get i).seq.stage = .safe
    let someUnsafe := ∃ i, isMember s.tables.active g i = true ∧ (s.rollers.get i).seq.stage ≠ .safe
    let atBand := ∀ i, isMember s.tables.active g i = true → (s.rollers.get i).seq.stage = .released →
      (s.rollers.get i).chan.speed.natAbs ≤ band
    let tooFast := ∃ i, isMember s.tables.active g i = true ∧ (s.rollers.get i).seq.stage = .released ∧
      band < (s.rollers.get i).chan.speed.natAbs
    ((hasMembers s.tables.active g = true ↔ ∃ i, isMember s.tables.active g i = true)
        ∧ (∀ i, isMember s.tables.active g i = true ↔ (s.tables.active.rollers.get i).group = some g.val))
      ∧ (hasMembers s.tables.active g = false → t = s)
      ∧ (hasMembers s.tables.active g = true →
        ((∀ i, isMember s.tables.active g i = true → (s.tables.active.rollers.get i).stageTimeout ≤ settleLimit s.tables.active g)
          ∧ ∃ i, isMember s.tables.active g i = true ∧ settleLimit s.tables.active g = (s.tables.active.rollers.get i).stageTimeout)
        ∧ t = disengagingTest g (engagingTests g (windDownTest g (stopTests g k s)))
        ∧ ((x.state = .idle ∨ x.state = .hold ∨ x.state = .follow ∨ x.state = .track ∨ x.state = .faulted) → t = s)
        ∧ (x.state = .stopping → x.windDown = false → x.speed = 0 → atBand →
            (x.cause ≠ .rollerFault → t = put { x with state := .hold, cause := .none, settle := none })
            ∧ (x.cause = .rollerFault →
              (allSafe → t = put faulted)
              ∧ (someUnsafe → t = { s with
                  groups := s.groups.set g { x with
                    windDown := true
                    settle := if anyMember s g fun r => isReleased r && decide (r.coup.prevSet ≠ 0) then some (x.settle.getD 0) else none }
                  rollers := s.rollers.mapIdx fun i r => if isMember s.tables.active g i && decide (r.seq.stage = .released) then
                    { r with seq := if r.coup.prevSet = 0 then
                        { stage := .applying, readyCount := 0, commanded := false, held := .none, timer := some 0 }
                      else { r.seq with held := .apply } } else r })))
        ∧ (x.state = .stopping → x.windDown = false → (x.speed ≠ 0 ∨ tooFast) →
            (x.settle = none → t = if x.speed = 0 then put { x with settle := some 0 } else s)
            ∧ ∀ n, x.settle = some n →
              (min 65535 (n + k) < settleLimit s.tables.active g → t = put { x with settle := some (min 65535 (n + k)) })
              ∧ (settleLimit s.tables.active g ≤ min 65535 (n + k) → t = settleExpiry g s))
        ∧ (x.state = .stopping → x.windDown = true → allSafe → t = put faulted)
        ∧ (x.state = .stopping → x.windDown = true → someUnsafe →
            (x.settle = none → t = s)
            ∧ (anyMember s g isReleased = false → t = put { x with settle := none })
            ∧ ∀ n, x.settle = some n → anyMember s g isReleased = true →
              (min 65535 (n + k) < settleLimit s.tables.active g → t = put { x with settle := some (min 65535 (n + k)) })
              ∧ (settleLimit s.tables.active g ≤ min 65535 (n + k) → t = settleExpiry g s))
        ∧ (x.state = .engaging → (∀ i, isMember s.tables.active g i = true → (s.rollers.get i).published = .energised) →
            t = { s with rollers := s.rollers.mapIdx fun i r => if isMember s.tables.active g i && decide (r.seq.stage = .energised) then
              { r with seq := if r.chan.speed.natAbs ≤ band then
                  { stage := .releasing, readyCount := 0, commanded := false, held := .none, timer := some 0 }
                else { r.seq with held := .release } } else r })
        ∧ (x.state = .engaging → (∀ i, isMember s.tables.active g i = true → (s.rollers.get i).published = .released) →
            t = put { x with state := .hold, speed := 0, residue := 0 })
        ∧ (x.state = .engaging → (∃ i, isMember s.tables.active g i = true ∧ (s.rollers.get i).published ≠ .energised) →
            (∃ i, isMember s.tables.active g i = true ∧ (s.rollers.get i).published ≠ .released) → t = s)
        ∧ (x.state = .disengaging →
            (allSafe → t = put { x with state := .idle, speed := 0, residue := 0 }) ∧ (someUnsafe → t = s)))

/-! ## Requests -/

/-- IDENTIFY replies with part code, revision, station and operating state and changes nothing (10 R167). READ_STATUS replies with the 44
bytes of the status and changes nothing (10 R168), each item at its offset in its size (13 R187): operating state, freeze byte, E with the
bits that say it is unset, a resync is due and a record is present, the group, roller and table status bytes, the pending count, the sticky
flag block, the counts, the trace's records and overflow count, the store state and the unanswered record. The codes (13 Sections 13.1 and
13.2): the group state byte, the roller byte, the table status byte and the result codes. -/
def Obligations.IdentifyAndStatusChangeNothing : Prop :=
  (∀ s : State, takesRequests s = true →
    (∃ t, exec .identify s = .next t
      ∧ Replied ⟨.done, [0x48, 0x3A, 1, BitVec.ofNat 8 s.tables.active.cell.station, if s.lpu.opState = .active then 2 else 1]⟩ s t)
    ∧ (∃ t, exec .readStatus s = .next t ∧ Replied ⟨.done, statusBytes s⟩ s t)
    ∧ (let b := statusBytes s
       b.length = 44 ∧ numAt b 0 1 = (if s.lpu.opState = .active then 2 else 1)
        ∧ (∀ n, (numAt b 1 1).testBit n = [s.tables.freezeFlag, s.cert, s.cert && s.tables.freezeFlag].getD n false)
        ∧ numAt b 2 4 = s.lpu.ext.getD 0 % 2 ^ 32
        ∧ (∀ n, (numAt b 6 1).testBit n = [s.lpu.ext.isNone, s.lpu.resyncDue, s.svc.unanswered.isSome].getD n false)
        ∧ (∀ g : Fin 4, numAt b (7 + g) 1 = groupByte
            { state := (s.groups.get g).state, cause := (s.groups.get g).cause, dir := (s.groups.get g).dir
              windDown := (s.groups.get g).windDown })
        ∧ (∀ i : Fin 4, numAt b (11 + i) 1 = rollerByte (s.rollers.get i))
        ∧ numAt b 15 1 = tableStatusByte (s.tables.ctl.get .cell) ∧ numAt b 16 1 = tableStatusByte (s.tables.ctl.get .slots)
        ∧ numAt b 17 1 = tableStatusByte (s.tables.ctl.get .rollers) ∧ numAt b 18 1 = tableStatusByte (s.tables.ctl.get .groups)
        ∧ numAt b 19 1 = tableStatusByte (s.tables.ctl.get .loads)
        ∧ numAt b 20 1 = s.tables.changes.length % 256 ∧ sliceAt b 21 8 = stickyBytes s
        ∧ numAt b 29 2 = s.lpu.checkErrCount % 65536 ∧ numAt b 31 4 = s.lpu.missedCount % 2 ^ 32
        ∧ numAt b 35 2 = s.trace.held % 65536 ∧ (TraceOk s → numAt b 35 2 = s.trace.records.length)
        ∧ numAt b 37 2 = s.trace.overflowCount % 65536
        ∧ (s.store.state = .idle → numAt b 39 1 = 0) ∧ (∀ snap, s.store.state = .saving snap → numAt b 39 1 = 1)
        ∧ (s.store.state = .failed → numAt b 39 1 = 2)
        ∧ (s.svc.unanswered = none → numAt b 40 4 = 0)
        ∧ ∀ u, s.svc.unanswered = some u →
            numAt b 40 1 = u.kind.toNat ∧ numAt b 41 2 = u.cycle.toNat ∧ numAt b 43 1 = resultCode u.code))
    ∧ (∀ v : GroupView, let n := groupByte v
        [GroupState.idle, .engaging, .hold, .follow, .track, .stopping, .disengaging, .faulted][n % 8]? = some v.state
          ∧ (v.state = .stopping → [StopCause.none, .request, .trackLost, .rollerFault][n / 8 % 4]? = some v.cause)
          ∧ (v.state = .track → [BlendDir.none, .inward, .steady, .outward][n / 8 % 4]? = some v.dir)
          ∧ (v.state ≠ .stopping → v.state ≠ .track → n / 8 % 4 = 0) ∧ n.testBit 5 = v.windDown ∧ n < 64)
    ∧ (∀ r : Roller, let n := rollerByte r
        let l := r.chan.latch
        [Stage.safe, .enabling, .energised, .releasing, .released, .applying, .disabling][n % 8]? = some r.seq.stage
          ∧ (n.testBit 3 = true ↔ r.seq.stage = .enabling ∧ r.seq.commanded = true)
          ∧ n.testBit 4 = l.countJump ∧ n.testBit 5 = l.sampleStale ∧ n.testBit 6 = l.driveFault ∧ n.testBit 7 = l.seqTimeout ∧ n < 256)
    ∧ (∀ c : TableCtl, let n := tableStatusByte c
        [LockState.unlocked, .locked, .lockedDown][n % 4]? = some c.lock ∧ n.testBit 2 = c.live ∧ n.testBit 3 = c.pinned ∧ n < 16)
    ∧ ∀ c : ResultCode, 1 ≤ resultCode c
        ∧ [ResultCode.done, .accepted, .busy, .barred, .invalid, .pending, .state, .length, .unknown, .full][resultCode c - 1]? = some c

/-- CLEAR_FLAGS (10 R170): in the order of the sticky flag block a flag stays set exactly where it was set and the mask does not name it,
the counts and the record tied to a named flag are cleared, the reply carries the block as the request left it, and latches and all other
state stay. For a mask that names no flag R170 says only DONE with no change; that the reply carries the block then too, by the 8 bytes that
13 Section 13.4 gives the kind, is the model's choice (log 30). The sticky flag block (13 Section 13.2): 8 bytes, line, rollers 0 to 3,
groups 0 to 3, then the flags of tables, trace and store, in this order from bit 0 on. -/
def Obligations.ClearFlagsClearsNamedFlags : Prop :=
  (∀ s : State,
    let l := s.lpu.flags
    let f := fun (i : Fin 4) => (s.rollers.get i).chan.flags
    let rollerBits := fun (i : Fin 4) =>
      [(f i).countJump, (f i).sampleStale, (f i).driveFault, (f i).forceSat, (f i).seqTimeout, false, false, false]
    let x := fun (g : Fin 4) => (s.groups.get g).flags
    let groupBits := fun (g : Fin 4) => [(x g).simSat, (x g).setSat, (x g).trackLost, (x g).settleTimeout]
    stickyList s = [l.checkErr, l.shortFrame, l.duplicate, l.missed, l.resync, l.ringLost, l.offTime, l.lateReply]
        ++ rollerBits 0 ++ rollerBits 1 ++ rollerBits 2 ++ rollerBits 3 ++ groupBits 0 ++ groupBits 1 ++ groupBits 2 ++ groupBits 3
        ++ [s.tables.flags.commitDropped, s.tables.flags.liveDropped, s.tables.flags.pendingDropped, s.trace.overflow, s.store.fail,
            s.store.invalid]
      ∧ (stickyBytes s).length = 8 ∧ ∀ n, (fromLE (stickyBytes s)).testBit n = (stickyList s).getD n false)
  ∧ ∀ (s : State) (mask : BitVec 64), takesRequests s = true →
    ∃ t u, exec (.clearFlags mask) s = .next t ∧ Replied ⟨.done, stickyBytes u⟩ u t
      ∧ stickyList u = (stickyList s).mapIdx (fun n f => f && !mask.getLsbD n)
      ∧ u.lpu = { s.lpu with flags := u.lpu.flags, checkErrCount := if mask.getLsbD 0 then 0 else s.lpu.checkErrCount
                             missedCount := if mask.getLsbD 3 then 0 else s.lpu.missedCount }
      ∧ u.svc = { s.svc with unanswered := if mask.getLsbD 7 then none else s.svc.unanswered }
      ∧ u.trace = { s.trace with overflow := u.trace.overflow, overflowCount := if mask.getLsbD 59 then 0 else s.trace.overflowCount }
      ∧ (∀ i, u.rollers.get i = { s.rollers.get i with chan := { (s.rollers.get i).chan with flags := (u.rollers.get i).chan.flags } })
      ∧ (∀ g, u.groups.get g = { s.groups.get g with flags := (u.groups.get g).flags })
      ∧ u = { s with lpu := u.lpu, rollers := u.rollers, groups := u.groups, svc := u.svc, trace := u.trace
                     tables := { s.tables with flags := u.tables.flags }
                     store := { s.store with fail := u.store.fail, invalid := u.store.invalid } }

/-- START in BYPASS with tables that pass the start check (01 R10, R22; 02 R37; 03 R56; 07 R131): DONE, ACTIVE, E, L and timers unset or
stopped, every roller and group at its initial values with its flags kept, the initial set current, the report image formed for cycle 0 with
every item of R34 and R35 as START leaves it. A failed start check is refused INVALID and changes nothing; START in ACTIVE replies DONE with
no change. The start check (08 R133 to R137) passes exactly where every entry of every table lies in its ranges, every PRESENT roller and no
other is in a group, and every placed field ends within the slot area and shares no byte with another. -/
def Obligations.StartBeginsARun : Prop :=
  ∀ s : State, takesRequests s = true →
    (s.lpu.opState = .bypass → startCheck s.tables.active = true →
      ∃ t u, exec .start s = .next t ∧ Replied ⟨.done, []⟩ u t
        ∧ u = { s with
          lpu := { s.lpu with opState := .active, ext := none, last := none, resyncDue := false, silenceTimer := none, arrivalTimer := none }
          slot := { positions := some { slots := s.tables.active.slots, report := s.tables.active.cell.report }
                    buffers := Quad.all none, current := Quad.all ⟨false, false, 0⟩, image := some (imageOf 0 u) }
          rollers := s.rollers.mapIdx fun _ r => Roller.initial r.chan.flags
          groups := s.groups.mapIdx fun _ g => Group.initial g.flags
          tables := { s.tables with due := LiveDue.none, changes := [], ctl := s.tables.ctl.mapT fun _ c => { c with pinned := false } }
          trace := { s.trace with records := [], read := s.trace.write, counter := 0, lastCounted := none } }
        ∧ ImageShows 0 u (imageOf 0 u)
        ∧ (∀ g, (imageOf 0 u).groups.get g = ⟨.idle, .none, .none, false⟩ ∧ (imageOf 0 u).speeds.get g = 0))
    ∧ (s.lpu.opState = .bypass → startCheck s.tables.active = false → ∃ t, exec .start s = .next t ∧ Replied ⟨.invalid, []⟩ s t)
    ∧ (s.lpu.opState = .active → ∃ t, exec .start s = .next t ∧ Replied ⟨.done, []⟩ s t)
    ∧ ∀ t : Tables, startCheck t = true ↔ (∀ p, entryInRange (t.entryAt p)) ∧ membersPlaced t ∧ fieldsPlaced t

/-- HALT in ACTIVE with every group IDLE or FAULTED (01 R11, R12): DONE, BYPASS, E, L and timers unset or stopped, FAULTED groups IDLE, the
list emptied with PENDING_DROPPED set if it held a record; stages, latches and channels as they are. That published stages stay even where a
line fault has forced SAFE since is the model's choice (log 38). Every live-due mark is taken as in BYPASS and cleared, staging stays, and
an entry without a mark stays (08 R141); an entry is copied where it passes the live check (08 R136), and a roller whose group changes joins
it with the published stage SAFE (07 R113). That an entry which fails the check is not copied is the model's choice (log 14). The sticky
flags are as they were but for PENDING_DROPPED (01 R11; 08 R152). With another group HALT is refused STATE; HALT in BYPASS replies DONE with
no change. -/
def Obligations.HaltEndsARun : Prop :=
  ∀ s : State, takesRequests s = true →
    let still := ∀ g, (s.groups.get g).state = .idle ∨ (s.groups.get g).state = .faulted
    let halted : State := { s with
      lpu := { s.lpu with opState := .bypass, ext := none, last := none, resyncDue := false, silenceTimer := none, arrivalTimer := none }
      slot := { s.slot with buffers := Quad.all none }
      retPass := s.retPass.map fun p => { p with voided := true }
      rollers := s.rollers.mapIdx fun _ r => { r with coup := { r.coup with reference := none } }
      groups := s.groups.mapIdx fun _ x => { x with
        state := .idle, cause := .none, windDown := false, settle := none, speed := 0, residue := 0, loadBlend := none
        blendPos := 0, dir := .none }
      tables := { s.tables with
        changes := [], due := LiveDue.none, ctl := s.tables.ctl.mapT fun _ c => { c with pinned := false }
        flags := { s.tables.flags with pendingDropped := s.tables.flags.pendingDropped || !s.tables.changes.isEmpty } } }
    (s.lpu.opState = .active → still → s.tables.due = LiveDue.none →
      ∃ t, exec .halt s = .next t ∧ Replied ⟨.done, []⟩ halted t)
    ∧ (s.lpu.opState = .active → still →
      ∃ t, exec .halt s = .next t ∧ t.svc.lastReply = some ⟨.done, []⟩ ∧ t.lpu = halted.lpu ∧ t.groups = halted.groups
        ∧ t.tables.due = LiveDue.none ∧ t.tables.changes = [] ∧ t.tables.staging = s.tables.staging
        ∧ t.tables.flags = halted.tables.flags ∧ (∀ i, (t.rollers.get i).chan = (s.rollers.get i).chan)
        ∧ ∀ p, s.tables.due.at p = false → t.tables.active.entryAt p = s.tables.active.entryAt p)
    ∧ (∀ p, s.lpu.opState = .active → still → s.tables.due = LiveDue.none.put p true →
      let e := s.tables.staging.entryAt p
      let new := s.tables.active.putEntry p e
      (liveCheck s.tables.active p e = true →
        ∃ t, exec .halt s = .next t ∧ Replied ⟨.done, []⟩ { halted with
          tables := { halted.tables with active := new }
          rollers := halted.rollers.mapIdx fun i r =>
            if (s.tables.active.rollers.get i).group = (new.rollers.get i).group then r else { r with published := .safe } } t)
      ∧ (liveCheck s.tables.active p e = false →
        ∃ t, exec .halt s = .next t ∧ Replied ⟨.done, []⟩ halted t))
    ∧ (s.lpu.opState = .active → ¬ still → ∃ t, exec .halt s = .next t ∧ Replied ⟨.state, []⟩ s t)
    ∧ (s.lpu.opState = .bypass → ∃ t, exec .halt s = .next t ∧ Replied ⟨.done, []⟩ s t)

/-- A GROUP request of a group with members in ACTIVE, by the group's state (07 R115 to R122; 05 R80, R86; 06 R99, R104): ENGAGE from IDLE,
RUN from HOLD, TRACK from FOLLOW, UNTRACK from TRACK, STOP from FOLLOW and TRACK, DISENGAGE from HOLD, CLEAR from IDLE and FAULTED, each
with what it does to the group and to each member, DONE with the group's state as left, and nothing else changed; and the cells of the table
of R115 that answer DONE with no change: ENGAGE in ENGAGING, RUN in FOLLOW, TRACK in TRACK not in OUT, UNTRACK in FOLLOW and in TRACK in
OUT, STOP in STOPPING, DISENGAGE in DISENGAGING. That a member which DISENGAGE moves to APPLYING has ready count 0 and the enable not
commanded there is the model's choice (log 31): 06 Section 6.1 gives both a meaning in ENABLING alone; ENGAGE's own values are those of R99.
The codes of the state byte are in IdentifyAndStatusChangeNothing. -/
def Obligations.GroupActionsMoveGroups : Prop :=
  ∀ (s : State) (n : Byte) (g : Fin 4), takesRequests s = true → s.lpu.opState = .active → n.toNat = g.val →
    hasMembers s.tables.active g = true →
    let x := s.groups.get g
    let mem := fun (f : Roller → Roller) => s.rollers.mapIdx fun i r => if isMember s.tables.active g i then f r else r
    let done := fun (c : Instr) (u : State) =>
      ∃ t, exec c s = .next t ∧ Replied ⟨.done, [BitVec.ofNat 8 (groupByte (viewOf (u.groups.get g)))]⟩ u t
    (x.state = .idle → s.lpu.ext ≠ none →
        (∀ i, isMember s.tables.active g i = true → (s.rollers.get i).chan.latch = ⟨false, false, false, false⟩
          ∧ ∃ st, (s.rollers.get i).chan.lastStatus = some st ∧ st.ready = true ∧ st.fault = false) →
        done (.groupEngage n) { s with
          groups := s.groups.set g { x with state := .engaging }
          rollers := mem fun r => if r.seq.stage = .safe then
            { r with seq := { stage := .enabling, readyCount := 0, commanded := false, held := .none, timer := some 0 } } else r })
      ∧ (x.state = .hold → done (.groupRun n) { s with groups := s.groups.set g { x with state := .follow, speed := 0, residue := 0 } })
      ∧ (x.state = .follow → done (.groupTrack n) { s with
          groups := s.groups.set g { x with state := .track, blendPos := 0, dir := .inward }
          rollers := mem fun r => { r with coup := { r.coup with reference := some r.coup.composed } } })
      ∧ (x.state = .track → x.dir = .outward →
          done (.groupTrack n) { s with groups := s.groups.set g { x with dir := .inward } })
      ∧ (x.state = .track → x.dir ≠ .outward →
          done (.groupUntrack n) { s with groups := s.groups.set g { x with dir := .outward } })
      ∧ ((x.state = .follow ∨ x.state = .track) → done (.groupStop n) { s with
          groups := s.groups.set g { x with
            state := .stopping, cause := .request, windDown := false, settle := none, residue := 0, blendPos := 0, dir := .none }
          rollers := mem fun r => { r with coup := { r.coup with reference := none } } })
      ∧ (x.state = .hold → done (.groupDisengage n) { s with
          groups := s.groups.set g { x with state := .disengaging }
          rollers := mem fun r => if r.seq.stage = .released then
              (if r.coup.prevSet = 0 ∧ r.chan.speed.natAbs ≤ s.tables.active.cell.standstill then
                { r with seq := { stage := .applying, readyCount := 0, commanded := false, held := .none, timer := some 0 } }
              else { r with seq := { r.seq with held := .apply } })
            else r })
      ∧ ((x.state = .idle ∨ x.state = .faulted) →
          (∀ i st, isMember s.tables.active g i = true → (s.rollers.get i).chan.lastStatus = some st → st.fault = false) →
          done (.groupClear n) { s with
            groups := s.groups.set g { x with state := .idle, speed := 0, residue := 0 }
            rollers := mem fun r => { r with chan := { r.chan with latch := ⟨false, false, false, false⟩ } } })
      ∧ (x.state = .engaging → done (.groupEngage n) s) ∧ (x.state = .follow → done (.groupRun n) s)
      ∧ (x.state = .track → x.dir ≠ .outward → done (.groupTrack n) s)
      ∧ ((x.state = .follow ∨ (x.state = .track ∧ x.dir = .outward)) → done (.groupUntrack n) s)
      ∧ (x.state = .stopping → done (.groupStop n) s) ∧ (x.state = .disengaging → done (.groupDisengage n) s)

/-- The refusals of GROUP (07 R115): outside ACTIVE STATE, a group number outside 0..3 or a group without members INVALID, and the actions
the table answers STATE in the group's state; ENGAGE in IDLE with E unset, a member's latch set, or a member whose last fresh status is
missing, lacks READY or shows FAULT (07 R116), and CLEAR in IDLE or FAULTED while a member's status shows FAULT (07 R122), are refused STATE
too. A refused request changes nothing, and its reply carries the group's state where the number lies in 0..3, in the codes of
IdentifyAndStatusChangeNothing, and no payload otherwise. -/
def Obligations.GroupActionsRefused : Prop :=
  ∀ (s : State) (n : Byte), takesRequests s = true →
    let rows : List Instr := [.groupEngage n, .groupRun n, .groupTrack n, .groupUntrack n, .groupStop n, .groupDisengage n, .groupClear n]
    (s.lpu.opState ≠ .active → ∀ c ∈ rows, ∃ t, exec c s = .next t ∧ Replied (groupReply .state n s) s t)
      ∧ (s.lpu.opState = .active → (∀ g : Fin 4, n.toNat = g.val → hasMembers s.tables.active g = false) →
          ∀ c ∈ rows, ∃ t, exec c s = .next t ∧ Replied (groupReply .invalid n s) s t)
      ∧ (∀ g : Fin 4, s.lpu.opState = .active → n.toNat = g.val → hasMembers s.tables.active g = true →
          let st := (s.groups.get g).state
          ((st ≠ .idle ∧ st ≠ .engaging → ∃ t, exec (.groupEngage n) s = .next t ∧ Replied (groupReply .state n s) s t)
            ∧ (st ≠ .hold ∧ st ≠ .follow → ∃ t, exec (.groupRun n) s = .next t ∧ Replied (groupReply .state n s) s t)
            ∧ (st ≠ .follow ∧ st ≠ .track → (∃ t, exec (.groupTrack n) s = .next t ∧ Replied (groupReply .state n s) s t)
                ∧ ∃ t, exec (.groupUntrack n) s = .next t ∧ Replied (groupReply .state n s) s t)
            ∧ (st ≠ .follow ∧ st ≠ .track ∧ st ≠ .stopping → ∃ t, exec (.groupStop n) s = .next t ∧ Replied (groupReply .state n s) s t)
            ∧ (st ≠ .hold ∧ st ≠ .disengaging → ∃ t, exec (.groupDisengage n) s = .next t ∧ Replied (groupReply .state n s) s t)
            ∧ (st ≠ .idle ∧ st ≠ .faulted → ∃ t, exec (.groupClear n) s = .next t ∧ Replied (groupReply .state n s) s t)
            ∧ (st = .idle → (s.lpu.ext = none ∨ ∃ i, isMember s.tables.active g i = true ∧
                ((s.rollers.get i).chan.latch ≠ ⟨false, false, false, false⟩ ∨ (s.rollers.get i).chan.lastStatus = none
                  ∨ ∃ x, (s.rollers.get i).chan.lastStatus = some x ∧ (x.ready = false ∨ x.fault = true))) →
                ∃ t, exec (.groupEngage n) s = .next t ∧ Replied (groupReply .state n s) s t)
            ∧ (st = .idle ∨ st = .faulted → (∃ i x, isMember s.tables.active g i = true ∧ (s.rollers.get i).chan.lastStatus = some x
                ∧ x.fault = true) →
                ∃ t, exec (.groupClear n) s = .next t ∧ Replied (groupReply .state n s) s t)))
      ∧ ∀ c : ResultCode, (3 < n.toNat → groupReply c n s = ⟨c, []⟩)
          ∧ ∀ g : Fin 4, n.toNat = g.val → groupReply c n s = ⟨c, [BitVec.ofNat 8 (groupByte (viewOf (s.groups.get g)))]⟩

/-- READ_ENTRY (08 R138): the entry of the named copy, the table's flags and the entry's live-due mark, and nothing changed; INVALID for a
table, an index or a copy that does not exist. That the mark's byte is 1 where it is set and 0 where it is clear is the model's choice (log
42). The entry's layout is in EntriesReadBackFromTheirBytes, the codes of the table status byte in IdentifyAndStatusChangeNothing. -/
def Obligations.ReadEntryReturnsTheEntry : Prop :=
  ∀ (s : State) (tb ix cp : Byte), takesRequests s = true →
    (∀ (t : Table) (p : Place), tableOf tb = some t → placeOf t ix.toNat = some p → cp.toNat < 2 →
      let copy := if cp.toNat = 0 then s.tables.staging else s.tables.active
      ∃ u, exec (.readEntry tb ix cp) s = .next u
        ∧ Replied ⟨.done, entryBytes (copy.entryAt p) ++ [BitVec.ofNat 8 (tableStatusByte (s.tables.ctl.get t))]
            ++ [if s.tables.due.at p then 1 else 0]⟩ s u)
    ∧ ((4 < tb.toNat ∨ 1 < cp.toNat ∨ ∃ t, tableOf tb = some t ∧ placeOf t ix.toNat = none) →
      ∃ u, exec (.readEntry tb ix cp) s = .next u ∧ Replied ⟨.invalid, []⟩ s u)

/-- WRITE_ENTRY in the order of 10 R163 and 08 R139: INVALID for no table, LENGTH for another length, INVALID for an index outside the table;
PROTECTED for a locked or frozen table, PENDING for a pinned one, INVALID for an entry that fails the entry check, or with LIVE on the live
check, and STATE in ACTIVE for a live ROLLERS entry that moves a roller out of or into a group that is not IDLE or FAULTED; nothing is then
written. An entry that passes (08 R139, R140): with LIVE off the staging entry alone, DONE; with LIVE on in ACTIVE the staging entry and the
live-due mark, ACCEPTED; with LIVE on in BYPASS the application at once, DONE. The entry check is the ranges of 08 R133 to R135; the live
check is the entry check and the cross-rules of R136 that involve the table, over the active copies with the entry in its place. -/
def Obligations.WriteEntryWritesStaging : Prop :=
  (∀ (s : State) (tb ix : Byte) (bs : List Byte), takesRequests s = true →
    let answers := fun (code : ResultCode) (u : State) => ∃ t, exec (.writeEntry tb ix bs) s = .next t ∧ Replied ⟨code, []⟩ u t
    (4 < tb.toNat → answers .invalid s)
    ∧ (∀ t, tableOf tb = some t → bs.length ≠ entrySize t → answers .length s)
    ∧ (∀ t, tableOf tb = some t → bs.length = entrySize t → placeOf t ix.toNat = none → answers .invalid s)
    ∧ ∀ p : Place, tableOf tb = some p.table → placeOf p.table ix.toNat = some p → bs.length = entrySize p.table →
      let c := s.tables.ctl.get p.table
      ((c.lock ≠ .unlocked ∨ inFreeze s = true) → answers .barred s)
      ∧ (c.lock = .unlocked → inFreeze s = false → c.pinned = true → answers .pending s)
      ∧ (c.lock = .unlocked → inFreeze s = false → c.pinned = false →
        ((∀ e, entryOf p.table bs = some e → entryCheck e = false) → answers .invalid s)
        ∧ ∀ e, entryOf p.table bs = some e → entryCheck e = true →
          let written : State := { s with tables := { s.tables with staging := s.tables.staging.putEntry p e } }
          let moves := ∃ i r, p = .rollers i ∧ e = .rollers r ∧ (s.tables.active.rollers.get i).group ≠ r.group
            ∧ ∃ g : Fin 4, ((s.tables.active.rollers.get i).group = some g.val ∨ r.group = some g.val)
              ∧ (s.groups.get g).state ≠ .idle ∧ (s.groups.get g).state ≠ .faulted
          (c.live = false → answers .done written)
          ∧ (c.live = true → liveCheck s.tables.active p e = false → answers .invalid s)
          ∧ (c.live = true → liveCheck s.tables.active p e = true →
            (s.lpu.opState = .active → moves → answers .state s)
            ∧ (s.lpu.opState = .active → ¬ moves →
                answers .accepted { written with tables := { written.tables with due := s.tables.due.put p true } })
            ∧ (s.lpu.opState = .bypass → answers .done (applyTables (s.tables.active.putEntry p e) none written)))))
    ∧ (∀ e, entryCheck e = true ↔ entryInRange e)
    ∧ ∀ (t : Tables) (p : Place) (e : Entry),
      (liveCheck t p e = true ↔ entryInRange e ∧ ((p.table = .rollers ∨ p.table = .slots) → membersPlaced (t.putEntry p e))
        ∧ ((p.table = .slots ∨ p.table = .cell) → fieldsPlaced (t.putEntry p e)))
      ∧ ∀ q e', entryOf p.table e' = some e → (t.putEntry p e).entryAt q = if q = p then e else t.entryAt q

/-- SET_LIVE (08 R142): the flag of a run table set, unless the table is locked or freeze is in effect, or cleared in every state; INVALID
for CELL, SLOTS and what is no table; nothing copied. -/
def Obligations.SetLiveSetsAndClears : Prop :=
  ∀ (s : State) (tb : Byte), takesRequests s = true →
    (∀ t : Table, tableOf tb = some t → (t = .rollers ∨ t = .groups ∨ t = .loads) →
      let put := fun (b : Bool) => { s with tables := { s.tables with ctl := s.tables.ctl.set t { s.tables.ctl.get t with live := b } } }
      (∃ u, exec (.setLiveOff tb) s = .next u ∧ Replied ⟨.done, []⟩ (put false) u)
        ∧ ((s.tables.ctl.get t).lock = .unlocked → inFreeze s = false →
            ∃ u, exec (.setLiveOn tb) s = .next u ∧ Replied ⟨.done, []⟩ (put true) u)
        ∧ (((s.tables.ctl.get t).lock ≠ .unlocked ∨ inFreeze s = true) →
            ∃ u, exec (.setLiveOn tb) s = .next u ∧ Replied ⟨.barred, []⟩ s u))
    ∧ ((tb.toNat < 2 ∨ 4 < tb.toNat) →
      (∃ u, exec (.setLiveOn tb) s = .next u ∧ Replied ⟨.invalid, []⟩ s u)
        ∧ ∃ u, exec (.setLiveOff tb) s = .next u ∧ Replied ⟨.invalid, []⟩ s u)

/-- COMMIT in the order of 08 R143: INVALID for an empty mask, blend cycles outside 1..4096, and a mask of 32 and above, which names
something other than the five tables (the model's reading, log 13); PROTECTED for a locked or frozen table; in BYPASS INVALID where an
effective cycle is given; in ACTIVE STATE where CELL or SLOTS is named or an effective cycle is given with E unset, INVALID for one outside
E + 1..E + 2²⁰, PENDING for a pinned table, FULL with 8 records; then INVALID where the commit check fails; nothing is then changed. One
that passes: in BYPASS the named staging tables are applied to the active copies at once, DONE; in ACTIVE a record with its due cycle enters
the list and its tables are pinned, ACCEPTED with the number of records held; it stands after every record whose due cycle is not later, so
after those of the same cycle, and the run's first accepted cycle, for a record without a number, comes before every number (R144). A commit
of CELL in BYPASS gives its station to the outbound frame in passage whose target byte is still to pass (10 R162), which the number the
sender gave with the frame tells (log 12, the model's choice). Of the presence byte bits 0 and 1 alone are read (13 Section 13.4); that bits
2 to 7 are taken as bits without a name, which 13 R186 has ignored, is the model's reading (log 32). The commit check (08 R136, R137) is
that every entry of a named table lies in its ranges and the cross-rules that involve a named table hold over the named staging tables with
the other active ones. -/
def Obligations.CommitAppliesOrWaits : Prop :=
  (∀ (s : State) (mask pres : Byte) (eff : BitVec 64) (bl : BitVec 16), takesRequests s = true →
    let answers := fun (code : ResultCode) (payload : List Byte) (u : State) =>
      ∃ t, exec (.commit mask pres eff bl) s = .next t ∧ Replied ⟨code, payload⟩ u t
    let blend := if pres.getLsbD 1 then some bl.toNat else none
    let effective := if pres.getLsbD 0 then some eff.toNat else none
    let check := commitCheck (maskNames mask) s.tables.staging s.tables.active
    let malformed := mask = 0 ∨ 32 ≤ mask.toNat ∨ (pres.getLsbD 1 = true ∧ (bl.toNat = 0 ∨ 4096 < bl.toNat))
    let free := ∀ t, maskNames mask t = true → (s.tables.ctl.get t).lock = .unlocked
    let pinned := ∃ t, maskNames mask t = true ∧ (s.tables.ctl.get t).pinned = true
    (malformed → answers .invalid [] s)
    ∧ (¬ malformed → (¬ free ∨ inFreeze s = true) → answers .barred [] s)
    ∧ (¬ malformed → free → inFreeze s = false →
      (s.lpu.opState = .bypass →
        ((pres.getLsbD 0 = true ∨ check = false) → answers .invalid [] s)
        ∧ (pres.getLsbD 0 = false → check = true →
            let applied := applyTables (Tables.merge (maskNames mask) s.tables.staging s.tables.active) blend s
            answers .done [BitVec.ofNat 8 s.tables.changes.length] (if maskNames mask .cell then { applied with
              outPass := s.outPass.map fun p => { p with
                station := if p.ahead = 0 then p.station else s.tables.staging.cell.station, ahead := p.ahead - 1 } } else applied)))
      ∧ (s.lpu.opState = .active →
        ((maskNames mask .cell = true ∨ maskNames mask .slots = true) → answers .state [] s)
        ∧ (maskNames mask .cell = false → maskNames mask .slots = false →
          (effective ≠ none → s.lpu.ext = none → answers .state [] s)
          ∧ (∀ x e, effective = some x → s.lpu.ext = some e → ¬ (e + 1 ≤ x ∧ x ≤ e + 1048576) → answers .invalid [] s)
          ∧ ((∀ x, effective = some x → ∃ e, s.lpu.ext = some e ∧ e + 1 ≤ x ∧ x ≤ e + 1048576) →
            (pinned → answers .pending [] s)
            ∧ (¬ pinned → 8 ≤ s.tables.changes.length → answers .full [] s)
            ∧ (¬ pinned → s.tables.changes.length < 8 → check = false → answers .invalid [] s)
            ∧ (¬ pinned → s.tables.changes.length < 8 → check = true →
                let due := match effective with
                  | some x => some x
                  | none => s.lpu.ext.map (· + 1)
                answers .accepted [BitVec.ofNat 8 (s.tables.changes.length + 1)] { s with tables := { s.tables with
                  changes := insertRecord { mask := mask, effective := effective, blend := blend, due := due } s.tables.changes
                  ctl := s.tables.ctl.mapT fun t c => if maskNames mask t then { c with pinned := true } else c } }))))))
    ∧ (∀ (r : ChangeRecord) (l : List ChangeRecord),
      let notLater := fun (a b : Option Nat) => a = none ∨ ∃ x y, a = some x ∧ b = some y ∧ x ≤ y
      ∃ before after, l = before ++ after ∧ insertRecord r l = before ++ r :: after ∧ (∀ x ∈ before, notLater x.due r.due)
        ∧ ∀ x, after.head? = some x → ¬ notLater x.due r.due)
    ∧ ∀ (named : Table → Bool) (staging active : Tables),
      let image := Tables.merge named staging active
      (commitCheck named staging active = true ↔ (∀ p : Place, named p.table = true → entryInRange (staging.entryAt p))
        ∧ ((named .rollers = true ∨ named .slots = true) → membersPlaced image)
        ∧ ((named .slots = true ∨ named .cell = true) → fieldsPlaced image))
      ∧ ∀ p : Place, image.entryAt p = if named p.table then staging.entryAt p else active.entryAt p

/-- CANCEL (08 R146): every record that names a table of the mask is removed and its tables unpinned, the others keep their order, and the
reply is DONE with the number removed; a mask naming something other than the five tables is INVALID, which the model reads as a mask of 32
and above (the model's choice, log 13). -/
def Obligations.CancelRemovesNamedRecords : Prop :=
  ∀ (s : State) (mask : Byte), takesRequests s = true →
    let hit := fun (r : ChangeRecord) => tablesInOrder.any fun t => maskNames mask t && maskNames r.mask t
    (mask.toNat < 32 → ∃ t u, exec (.cancel mask) s = .next t
        ∧ Replied ⟨.done, [BitVec.ofNat 8 (s.tables.changes.filter hit).length]⟩ u t
        ∧ u = { s with tables := { s.tables with changes := s.tables.changes.filter fun r => !hit r, ctl := u.tables.ctl } }
        ∧ ∀ tb, u.tables.ctl.get tb = { s.tables.ctl.get tb with
            pinned := (s.tables.ctl.get tb).pinned && !(s.tables.changes.any fun r => hit r && maskNames r.mask tb) })
      ∧ (32 ≤ mask.toNat → ∃ t, exec (.cancel mask) s = .next t ∧ Replied ⟨.invalid, []⟩ s t)

/-- The Pending Change List holds at most 8 records in non-decreasing due cycle, no table is named by two, and the pinned tables are those
a record names (08 R144, R145): every step keeps it. -/
def Obligations.PendingListKeptByEveryStep : Prop :=
  ∀ s t : State, ChangesOk s → step s = .next t → ChangesOk t

/-- The Table Manager's work at an accepted cycle (08 R147): nothing while nothing is due. The live-due marks are taken first, in table
order and by ascending index (R141): the first mark set is cleared and its entry copied, or dropped with LIVE_DROPPED, and the work goes on
from the state that leaves. With no mark left, the record at the head is taken while it is due: it leaves the list and its tables are
unpinned, applied where the commit check and the group change test pass and dropped with COMMIT_DROPPED otherwise (R148), and the work goes
on from the state that leaves, so each test reads the copies after every earlier application. The group change test: every group that a
roller leaves or joins is IDLE or FAULTED. An application replaces the active copies (R149): per group r is 0 where m changes (04 R70), a
change of the effective coefficients begins a load blend or ends one (04 R65, R66), a change of N_t adjusts the blend (05 R87), and an
emptied FAULTED group is IDLE with v_g and r 0 (07 R128); a roller whose group changes has the published stage SAFE (07 R113); nothing else
of a group or a roller changes. -/
def Obligations.DueChangesTaken : Prop :=
  (∀ (s : State) (e : Nat),
    (s.tables.due = LiveDue.none → (∀ r, s.tables.changes.head? = some r → ∃ d, r.due = some d ∧ e < d) → tableWork e s = s)
      ∧ (∀ r rest, s.tables.due = LiveDue.none → s.tables.changes = r :: rest → (∀ d, r.due = some d → d ≤ e) →
        let new := Tables.merge (maskNames r.mask) s.tables.staging s.tables.active
        let taken : State := { s with tables := { s.tables with
          changes := rest, ctl := s.tables.ctl.mapT fun t c => if maskNames r.mask t then { c with pinned := false } else c } }
        let ok := commitCheck (maskNames r.mask) s.tables.staging s.tables.active = true
          ∧ (maskNames r.mask .rollers = true → groupChangeOk s new = true)
        (ok → tableWork e s = tableWork e (applyTables new r.blend taken))
          ∧ (¬ ok → tableWork e s = tableWork e { taken with tables := { taken.tables with
              flags := { s.tables.flags with commitDropped := true } } }))
      ∧ (∀ p before after, placesInOrder = before ++ p :: after → (∀ q ∈ before, s.tables.due.at q = false) → s.tables.due.at p = true →
        let en := s.tables.staging.entryAt p
        let new := s.tables.active.putEntry p en
        let taken : State := { s with tables := { s.tables with due := s.tables.due.put p false } }
        let ok := liveCheck s.tables.active p en = true ∧ groupChangeOk s new = true
        (ok → tableWork e s = tableWork e (applyTables new none taken))
          ∧ (¬ ok → tableWork e s = tableWork e { taken with tables := { taken.tables with
              flags := { s.tables.flags with liveDropped := true } } }))
      ∧ ∀ new : Tables, groupChangeOk s new = true ↔ ∀ (i g : Fin 4), (s.tables.active.rollers.get i).group ≠ (new.rollers.get i).group →
          ((s.tables.active.rollers.get i).group = some g.val ∨ (new.rollers.get i).group = some g.val) →
          (s.groups.get g).state = .idle ∨ (s.groups.get g).state = .faulted)
    ∧ placesInOrder = [.cell, .slots 0, .slots 1, .slots 2, .slots 3, .rollers 0, .rollers 1, .rollers 2, .rollers 3,
        .groups 0, .groups 1, .groups 2, .groups 3,
        .loads 0, .loads 1, .loads 2, .loads 3, .loads 4, .loads 5, .loads 6, .loads 7]
    ∧ (∀ (d : LiveDue) (p q : Place) (b : Bool), (d.put p b).at q = if q = p then b else d.at q)
    ∧ ∀ (s : State) (new : Tables) (blend : Option Nat),
      let t := applyTables new blend s
      let old := s.tables.active
      t = { s with tables := { s.tables with active := new }, groups := t.groups, rollers := t.rollers }
        ∧ (∀ i, t.rollers.get i = if (old.rollers.get i).group = (new.rollers.get i).group then s.rollers.get i
            else { s.rollers.get i with published := .safe })
        ∧ ∀ g : Fin 4,
          let x := s.groups.get g
          let nt := (new.groups.get g).trackBlend
          let emptied := x.state = .faulted ∧ (∃ i, isMember old g i = true) ∧ ∀ i, isMember new g i = false
          t.groups.get g = { x with
            state := (t.groups.get g).state, speed := (t.groups.get g).speed, residue := (t.groups.get g).residue
            loadBlend := if effective old g = effective new g then x.loadBlend else
              if s.lpu.opState = .active then blend.map fun n => { old := effective old g, pos := 0, len := n } else none
            blendPos := if (old.groups.get g).trackBlend = nt then x.blendPos else match x.dir with
              | .inward | .outward => min x.blendPos nt
              | .steady => nt
              | .none => x.blendPos
            dir := if (old.groups.get g).trackBlend ≠ nt ∧ x.dir = .inward ∧ min x.blendPos nt = nt then .steady else x.dir }
          ∧ (emptied → (t.groups.get g).state = .idle ∧ (t.groups.get g).speed = 0 ∧ (t.groups.get g).residue = 0)
          ∧ (¬ emptied → (t.groups.get g).state = x.state ∧ (t.groups.get g).speed = x.speed
              ∧ (t.groups.get g).residue = if (old.groups.get g).mass = (new.groups.get g).mass then x.residue else 0)

/-- LOCK in its three modes (09 R154): each named table moves as the table of the rule gives, with the LIVE flag cleared where it becomes
locked; UNLOCK is refused PROTECTED under freeze and where a named table is LOCKED_DOWN; an empty mask is INVALID, and so is, by the model's
choice (log 13), one of 32 and above. Every reply carries the five table status bytes as the request left them, in table-code order and in
the codes of IdentifyAndStatusChangeNothing. A table that is LOCKED_DOWN stays LOCKED_DOWN in every step but the loss and the return of
power (09 R153). -/
def Obligations.LocksMoveAsTheTableGives : Prop :=
  (∀ (s : State) (mask : Byte), takesRequests s = true →
     let named := fun (f : TableCtl → TableCtl) => { s with tables := { s.tables with
       ctl := s.tables.ctl.mapT fun t c => if maskNames mask t then f c else c } }
     let answers := fun (c : Instr) (code : ResultCode) (u : State) =>
       ∃ t, exec c s = .next t ∧ Replied ⟨code, tableStatusBytes u.tables.ctl⟩ u t
     (mask ≠ 0 → mask.toNat < 32 →
         answers (.lock mask) .done (named fun c => if c.lock = .unlocked then { c with lock := .locked, live := false } else c)
         ∧ answers (.lockDown mask) .done (named fun c => if c.lock = .unlocked then { c with lock := .lockedDown, live := false }
             else { c with lock := .lockedDown })
         ∧ (inFreeze s = false → (∀ t, maskNames mask t = true → (s.tables.ctl.get t).lock ≠ .lockedDown) →
             answers (.unlock mask) .done (named fun c => { c with lock := .unlocked }))
         ∧ ((inFreeze s = true ∨ ∃ t, maskNames mask t = true ∧ (s.tables.ctl.get t).lock = .lockedDown) → answers (.unlock mask) .barred s))
       ∧ ((mask = 0 ∨ 32 ≤ mask.toNat) → answers (.lock mask) .invalid s ∧ answers (.unlock mask) .invalid s
           ∧ answers (.lockDown mask) .invalid s))
    ∧ (∀ c : Five TableCtl, tableStatusBytes c
         = [.cell, .slots, .rollers, .groups, .loads].map fun t => BitVec.ofNat 8 (tableStatusByte (c.get t)))
    ∧ (∀ (s t : State) (tb : Table), (s.tables.ctl.get tb).lock = .lockedDown → s.pending.head? ≠ some .powerUp →
         s.pending.head? ≠ some .powerDown → step s = .next t → (t.tables.ctl.get tb).lock = .lockedDown)

/-- TRACE_SET (11 R173): the selected group, d and enable take the named values and the counter is 0; naming another group empties the
buffer by the read pointer; codes outside their ranges are INVALID and change nothing. READ_TRACE (11 R177): the oldest record is returned
and removed, and an empty buffer gives length 0. The 64 bytes of a record hold each item of R175 at its offset in its size (13 Section
13.3), v_i limited to ±2,147,483,647; the codes of the group state byte are in IdentifyAndStatusChangeNothing. What a record holds is in
TraceAppendsOrCounts. -/
def Obligations.TraceRequests : Prop :=
  (∀ r : TraceRecord,
    let b := traceBytes r
    b.length = 64 ∧ numAt b 0 8 = r.cycle % 2 ^ 64 ∧ numAt b 8 1 = groupByte ⟨r.group.state, r.group.cause, r.group.dir, false⟩
      ∧ numAt b 9 2 = r.blendPos % 65536 ∧ intAt b 11 4 = Int.bmod r.speed (2 ^ 32) ∧ intAt b 15 4 = Int.bmod r.force (2 ^ 32)
      ∧ intAt b 19 4 = Int.bmod r.load (2 ^ 32)
      ∧ (∀ n, (numAt b 23 1).testBit n = [r.members.get 0, r.members.get 1, r.members.get 2, r.members.get 3].getD n false)
      ∧ ∀ i : Fin 4, intAt b (24 + 10 * i) 4 = max (-2147483647) (min (r.rollers.get i).speed 2147483647)
          ∧ intAt b (28 + 10 * i) 4 = Int.bmod (r.rollers.get i).setpoint (2 ^ 32)
          ∧ intAt b (32 + 10 * i) 2 = Int.bmod (r.rollers.get i).error (2 ^ 16))
  ∧ ∀ s : State, takesRequests s = true →
    (∀ (gb d en : Byte) (g : Fin 4), gb.toNat = g.val → 1 ≤ d.toNat → d.toNat ≤ 64 → en.toNat < 2 →
      let b : TraceBuffer := { s.trace with
        group := g, decimation := d.toNat, enable := decide (en.toNat = 1), counter := 0
        records := if g = s.trace.group then s.trace.records else []
        read := if g = s.trace.group then s.trace.read else s.trace.write }
      ∃ t, exec (.traceSet gb d en) s = .next t
        ∧ Replied ⟨.done, [gb, d, en] ++ leBytes 2 b.held⟩ { s with trace := b } t)
    ∧ (∀ gb d en : Byte, (3 < gb.toNat ∨ d.toNat = 0 ∨ 64 < d.toNat ∨ 1 < en.toNat) →
      ∃ t, exec (.traceSet gb d en) s = .next t ∧ Replied ⟨.invalid, []⟩ s t)
    ∧ (s.trace.records = [] → ∃ t, exec .readTrace s = .next t ∧ Replied ⟨.done, []⟩ s t)
    ∧ (∀ r rest, s.trace.records = r :: rest → ∃ t, exec .readTrace s = .next t
        ∧ Replied ⟨.done, traceBytes r⟩ { s with trace := { s.trace with
            records := rest
            read := if s.trace.read.index + 1 < 512 then ⟨s.trace.read.index + 1, s.trace.read.wrap⟩
              else ⟨0, !s.trace.read.wrap⟩ } } t ∧ (traceBytes r).length = 64)

/-- An accepted cycle with the trace enabled adds one to the decimation counter; where it reaches d the counter is 0 and the record is
appended (11 R174), and with the trace off nothing happens. An append (11 R176): in a buffer that is not full the record stands at the end
and the write pointer advances; in a full one the record is dropped, the overflow count grows and TRACE_OVERFLOW is set. The record holds
the items of R175: E, the selected group's state with its cause and blend direction, the blend position after the move, v_g, F_g and F_rl as
the step handed them on, the member mask, and for each roller v_i, its published setpoint and its kept error in µm, limited to ±32,767, 0
for none; that the state is the one the step handed on while the direction is the one after the move is the model's choice (log 15). That
the row can be sent alone, and then makes the append of a cycle not yet counted whose count reaches d and does nothing else, is the model's
choice (log 5). The Trace Buffer holds at most 512 records in strictly ascending cycle, as many as its pointers tell (11 R176): every step
keeps it. -/
def Obligations.TraceAppendsOrCounts : Prop :=
  (∀ (s : State) (e : Nat),
     let b := s.trace
     let full := b.write.index = b.read.index ∧ b.write.wrap ≠ b.read.wrap
     let appended : State := { s with trace := { b with
       counter := 0, records := b.records ++ [traceRecordOf e s], lastCounted := some e
       write := if b.write.index + 1 < 512 then ⟨b.write.index + 1, b.write.wrap⟩ else ⟨0, !b.write.wrap⟩ } }
     let dropped : State := { s with trace := { b with
       counter := 0, overflow := true, overflowCount := min 65535 (b.overflowCount + 1), lastCounted := some e } }
     RecordShows e s (traceRecordOf e s)
     ∧ (b.enable = false → traceWork e s = s)
     ∧ (b.enable = true → b.counter + 1 ≠ b.decimation →
         traceWork e s = { s with trace := { b with counter := b.counter + 1, lastCounted := some e } })
     ∧ (b.enable = true → b.counter + 1 = b.decimation →
         (¬ full → traceWork e s = appended) ∧ (full → traceWork e s = dropped))
     ∧ (s.lpu.opState = .active → s.lpu.ext = some e → b.enable = true → b.lastCounted ≠ some e → b.counter + 1 = b.decimation →
         (¬ full → exec .traceRecordAppend s = .next appended) ∧ (full → exec .traceRecordAppend s = .next dropped))
     ∧ ((s.lpu.opState ≠ .active ∨ s.lpu.ext = none ∨ b.enable = false ∨ s.lpu.ext = b.lastCounted ∨ b.counter + 1 ≠ b.decimation) →
         exec .traceRecordAppend s = .next s))
    ∧ (∀ s t : State, TraceOk s → step s = .next t → TraceOk t)
end

