-- ==== Sys2Proof/Laws/Arith.lean ====
section
/-! SUPPORT. What the exact arithmetic, the byte order and the check word can do. -/

namespace Sys2Proof.Machine

/-- The quotient and the remainder kept with it give the numerator back. -/
theorem floorDiv_mul_add (n : Int) (d : Nat) : floorDiv n d * d + floorRem n d = n := by
  simp [floorRem]

/-- The remainder kept with floorDiv lies in 0..d − 1 (00, Arithmetic and rounding). -/
theorem floorRem_range (n : Int) (d : Nat) (hd : 0 < d) : 0 ≤ floorRem n d ∧ floorRem n d < d := by
  have e : floorRem n d = n % (d : Int) := by
    have h := Int.emod_add_mul_ediv n d
    have c := Int.mul_comm (d : Int) (n / d)
    simp only [floorRem, floorDiv]
    omega
  rw [e]
  exact ⟨Int.emod_nonneg _ (by omega), Int.emod_lt_of_pos _ (by omega)⟩

/-- A clamp keeps its bounds. -/
theorem clampAround_range (x p : Int) (s : Nat) : p - s ≤ clampAround x p s ∧ clampAround x p s ≤ p + s := by
  simp only [clampAround]
  omega

/-- A clamp leaves a value within its bounds as it is. -/
theorem clampAround_of_within {x p : Int} {s : Nat} (h : p - s ≤ x ∧ x ≤ p + s) : clampAround x p s = x := by
  simp only [clampAround]
  omega

@[simp] theorem leBytes_length (n x : Nat) : (leBytes n x).length = n := by
  induction n generalizing x with
  | zero => rfl
  | succ n ih => simp [leBytes, ih]

@[simp] theorem take_leBytes (n x : Nat) : (leBytes n x).take n = leBytes n x :=
  List.take_of_length_le (by simp)

@[simp] theorem leBytesInt_length (n : Nat) (x : Int) : (leBytesInt n x).length = n := by
  simp [leBytesInt]

/-- Bytes written of a number read back as it, less what their width does not hold. -/
theorem fromLE_leBytes_mod (n x : Nat) : fromLE (leBytes n x) = x % 256 ^ n := by
  induction n generalizing x with
  | zero => simp [leBytes, fromLE, Nat.mod_one]
  | succ n ih => simp [leBytes, fromLE, ih, Nat.pow_succ', Nat.mod_mul]

/-- A number that fits its bytes is read back. -/
theorem fromLE_leBytes (n x : Nat) (h : x < 256 ^ n) : fromLE (leBytes n x) = x := by
  rw [fromLE_leBytes_mod, Nat.mod_eq_of_lt h]

/-- The same of a signed number in two's complement. -/
theorem fromLEInt_leBytesInt (n : Nat) (x : Int) : fromLEInt (leBytesInt n x) = Int.bmod x (256 ^ n) := by
  have h : (0 : Int) ≤ x % (256 ^ n : Nat) := Int.emod_nonneg _ (by positivity)
  rw [fromLEInt, leBytesInt, fromLE_leBytes_mod, leBytes_length, Nat.mod_eq_of_lt, Int.toNat_of_nonneg h, Int.emod_bmod]
  rw [Int.toNat_lt h]
  exact Int.emod_lt_of_pos _ (by positivity)

/-- The bits of a packed list of flags. -/
theorem bitsOf_testBit (l : List Bool) (n : Nat) : (bitsOf l).testBit n = l.getD n false := by
  induction l generalizing n with
  | nil => simp [bitsOf]
  | cons b l ih =>
    cases n with
    | zero => cases b <;> simp [bitsOf, Nat.testBit_zero]
    | succ n =>
      rw [Nat.testBit_succ, show bitsOf (b :: l) / 2 = bitsOf l by cases b <;> simp [bitsOf]; omega, ih]
      simp

/-- A number read from bytes fits them. -/
theorem fromLE_lt (bs : List Byte) : fromLE bs < 256 ^ bs.length := by
  induction bs with
  | nil => simp [fromLE]
  | cons b bs ih =>
    have hb := b.isLt
    simp only [fromLE, List.length_cons, pow_succ]
    omega

@[simp] theorem patchAt_length (bs : List Byte) (off : Nat) (ps : List Byte) : (patchAt bs off ps).length = bs.length := by
  induction bs generalizing off ps with
  | nil => simp [patchAt]
  | cons b bs ih =>
    cases off with
    | zero => cases ps with
      | nil => simp [patchAt]
      | cons p ps => simp [patchAt, ih]
    | succ off => simp [patchAt, ih]

/-- Bytes before the place of a write stay as they are. -/
theorem patchAt_take (bs : List Byte) (off n : Nat) (ps : List Byte) (h : n ≤ off) : (patchAt bs off ps).take n = bs.take n := by
  induction bs generalizing off n with
  | nil => simp [patchAt]
  | cons b bs ih =>
    cases n with
    | zero => simp
    | succ n =>
      cases off with
      | zero => omega
      | succ off =>
        simp only [patchAt, List.take_succ_cons]
        rw [ih off n (by omega)]

/-- A write behind the end of the frame places no byte. -/
theorem patchAt_beyond (bs : List Byte) (off : Nat) (ps : List Byte) (h : bs.length ≤ off) : patchAt bs off ps = bs := by
  induction bs generalizing off with
  | nil => simp [patchAt]
  | cons b bs ih =>
    cases off with
    | zero => simp at h
    | succ off =>
      simp only [patchAt]
      rw [ih off (by simpa using h)]

@[simp] theorem patchAt_nil (bs : List Byte) (off : Nat) : patchAt bs off [] = bs := by
  induction bs generalizing off with
  | nil => simp [patchAt]
  | cons b bs ih =>
    cases off with
    | zero => simp [patchAt]
    | succ off => simp [patchAt, ih]

@[simp] theorem checkBytes_length (c : BitVec 32) : (checkBytes c).length = 4 := by simp [checkBytes]

/-- Two check words that are sent alike are equal. -/
theorem checkBytes_inj {a b : BitVec 32} (h : checkBytes a = checkBytes b) : a = b := by
  have ha := fromLE_leBytes 4 a.toNat (by simpa using a.isLt)
  have hb := fromLE_leBytes 4 b.toNat (by simpa using b.isLt)
  have h' : leBytes 4 a.toNat = leBytes 4 b.toNat := h
  apply BitVec.eq_of_toNat_eq
  rw [← ha, ← hb, h']

/-- A check word never equals its complement. -/
theorem not_compl_self (c : BitVec 32) : ~~~c ≠ c := by
  intro h
  have := congrArg (fun x => x.getLsbD 0) h
  simp at this

end Sys2Proof.Machine
end

