-- ==== Sys2Proof/Laws/Quad.lean ====
section
/-! SUPPORT. Reading one of four, eight or five like things after a change. -/

namespace Sys2Proof

theorem Quad.get_set {α : Type} (q : Quad α) (i j : Fin 4) (a : α) : (q.set i a).get j = if j = i then a else q.get j := by
  fin_cases i <;> fin_cases j <;> rfl

@[simp] theorem Quad.get_set_same {α : Type} (q : Quad α) (i : Fin 4) (a : α) : (q.set i a).get i = a := by
  simp [Quad.get_set]

theorem Quad.get_set_other {α : Type} (q : Quad α) (i j : Fin 4) (a : α) (h : j ≠ i) : (q.set i a).get j = q.get j := by
  simp [Quad.get_set, h]

@[simp] theorem Quad.get_mapIdx {α β : Type} (f : Fin 4 → α → β) (q : Quad α) (i : Fin 4) :
    (q.mapIdx f).get i = f i (q.get i) := by
  fin_cases i <;> rfl

@[simp] theorem Quad.get_of {α : Type} (f : Fin 4 → α) (i : Fin 4) : (Quad.of f).get i = f i := by
  fin_cases i <;> rfl

@[simp] theorem Quad.get_all {α : Type} (a : α) (i : Fin 4) : (Quad.all a).get i = a := by
  fin_cases i <;> rfl

/-- Four things are known by what stands at each index. -/
theorem Quad.ext_get {α : Type} {p q : Quad α} (h : ∀ i, p.get i = q.get i) : p = q := by
  obtain ⟨a, b, c, d⟩ := p
  obtain ⟨a', b', c', d'⟩ := q
  have h0 := h 0; have h1 := h 1; have h2 := h 2; have h3 := h 3
  simp only [Quad.get] at h0 h1 h2 h3
  subst h0 h1 h2 h3
  rfl

@[simp] theorem Quad.mem_toList {α : Type} (q : Quad α) (a : α) : a ∈ q.toList ↔ ∃ i, q.get i = a := by
  simp only [Quad.toList, List.mem_cons, List.not_mem_nil, or_false]
  constructor
  · rintro (rfl | rfl | rfl | rfl)
    exacts [⟨0, rfl⟩, ⟨1, rfl⟩, ⟨2, rfl⟩, ⟨3, rfl⟩]
  · rintro ⟨i, rfl⟩
    fin_cases i <;> simp [Quad.get]

/-- A test of all four indices. -/
@[simp] theorem four_all (p : Fin 4 → Bool) : four.all p = true ↔ ∀ i, p i = true := by
  simp only [four, List.all_cons, List.all_nil, Bool.and_true, Bool.and_eq_true]
  constructor
  · rintro ⟨h0, h1, h2, h3⟩ i
    fin_cases i
    exacts [h0, h1, h2, h3]
  · intro h
    exact ⟨h 0, h 1, h 2, h 3⟩

/-- A test of any of the four indices. -/
@[simp] theorem four_any (p : Fin 4 → Bool) : four.any p = true ↔ ∃ i, p i = true := by
  simp only [four, List.any_cons, List.any_nil, Bool.or_false, Bool.or_eq_true]
  constructor
  · rintro (h | h | h | h)
    exacts [⟨0, h⟩, ⟨1, h⟩, ⟨2, h⟩, ⟨3, h⟩]
  · rintro ⟨i, h⟩
    fin_cases i <;> simp_all

@[simp] theorem Octo.get_of {α : Type} (f : Fin 8 → α) (i : Fin 8) : (Octo.of f).get i = f i := by
  fin_cases i <;> rfl

@[simp] theorem Octo.get_all {α : Type} (a : α) (i : Fin 8) : (Octo.all a).get i = a := by
  fin_cases i <;> rfl

theorem Octo.get_set {α : Type} (q : Octo α) (i j : Fin 8) (a : α) : (q.set i a).get j = if j = i then a else q.get j := by
  fin_cases i <;> fin_cases j <;> rfl

/-- Eight things are known by what stands at each index. -/
theorem Octo.ext_get {α : Type} {p q : Octo α} (h : ∀ i, p.get i = q.get i) : p = q := by
  obtain ⟨a, b, c, d, e, f, g, k⟩ := p
  obtain ⟨a', b', c', d', e', f', g', k'⟩ := q
  have h0 := h 0; have h1 := h 1; have h2 := h 2; have h3 := h 3
  have h4 := h 4; have h5 := h 5; have h6 := h 6; have h7 := h 7
  simp only [Octo.get] at h0 h1 h2 h3 h4 h5 h6 h7
  subst h0 h1 h2 h3 h4 h5 h6 h7
  rfl

@[simp] theorem Five.get_mapT {α β : Type} (f : Table → α → β) (q : Five α) (t : Table) : (q.mapT f).get t = f t (q.get t) := by
  cases t <;> rfl

@[simp] theorem Five.get_all {α : Type} (a : α) (t : Table) : (Five.all a).get t = a := by
  cases t <;> rfl

theorem Five.get_set {α : Type} (q : Five α) (t u : Table) (a : α) : (q.set t a).get u = if u = t then a else q.get u := by
  cases t <;> cases u <;> rfl

/-- Five things are known by what stands at each table. -/
theorem Five.ext_get {α : Type} {p q : Five α} (h : ∀ t, p.get t = q.get t) : p = q := by
  obtain ⟨a, b, c, d, e⟩ := p
  obtain ⟨a', b', c', d', e'⟩ := q
  have h0 := h .cell; have h1 := h .slots; have h2 := h .rollers; have h3 := h .groups; have h4 := h .loads
  simp only [Five.get] at h0 h1 h2 h3 h4
  subst h0 h1 h2 h3 h4
  rfl

end Sys2Proof
end

