-- ==== Sys2Proof/Laws/State.lean ====
section
/-! SUPPORT. One lemma per field per update of the state, so that no proof unfolds a record update. -/

namespace Sys2Proof.Machine

@[simp] theorem State.onRoller_powered (s : State) (i : Fin 4) (f : Roller → Roller) : (s.onRoller i f).powered = s.powered := rfl
@[simp] theorem State.onRoller_resetLine (s : State) (i : Fin 4) (f : Roller → Roller) : (s.onRoller i f).resetLine = s.resetLine := rfl
@[simp] theorem State.onRoller_cert (s : State) (i : Fin 4) (f : Roller → Roller) : (s.onRoller i f).cert = s.cert := rfl
@[simp] theorem State.onRoller_lpu (s : State) (i : Fin 4) (f : Roller → Roller) : (s.onRoller i f).lpu = s.lpu := rfl
@[simp] theorem State.onRoller_outPass (s : State) (i : Fin 4) (f : Roller → Roller) : (s.onRoller i f).outPass = s.outPass := rfl
@[simp] theorem State.onRoller_retPass (s : State) (i : Fin 4) (f : Roller → Roller) : (s.onRoller i f).retPass = s.retPass := rfl
@[simp] theorem State.onRoller_sentD (s : State) (i : Fin 4) (f : Roller → Roller) : (s.onRoller i f).sentD = s.sentD := rfl
@[simp] theorem State.onRoller_sentM (s : State) (i : Fin 4) (f : Roller → Roller) : (s.onRoller i f).sentM = s.sentM := rfl
@[simp] theorem State.onRoller_slot (s : State) (i : Fin 4) (f : Roller → Roller) : (s.onRoller i f).slot = s.slot := rfl
@[simp] theorem State.onRoller_rollers (s : State) (i : Fin 4) (f : Roller → Roller) : (s.onRoller i f).rollers = s.rollers.set i (f (s.rollers.get i)) := rfl
@[simp] theorem State.onRoller_groups (s : State) (i : Fin 4) (f : Roller → Roller) : (s.onRoller i f).groups = s.groups := rfl
@[simp] theorem State.onRoller_tables (s : State) (i : Fin 4) (f : Roller → Roller) : (s.onRoller i f).tables = s.tables := rfl
@[simp] theorem State.onRoller_svc (s : State) (i : Fin 4) (f : Roller → Roller) : (s.onRoller i f).svc = s.svc := rfl
@[simp] theorem State.onRoller_trace (s : State) (i : Fin 4) (f : Roller → Roller) : (s.onRoller i f).trace = s.trace := rfl
@[simp] theorem State.onRoller_store (s : State) (i : Fin 4) (f : Roller → Roller) : (s.onRoller i f).store = s.store := rfl
@[simp] theorem State.onRoller_pending (s : State) (i : Fin 4) (f : Roller → Roller) : (s.onRoller i f).pending = s.pending := rfl

@[simp] theorem State.onGroup_powered (s : State) (g : Fin 4) (f : Group → Group) : (s.onGroup g f).powered = s.powered := rfl
@[simp] theorem State.onGroup_resetLine (s : State) (g : Fin 4) (f : Group → Group) : (s.onGroup g f).resetLine = s.resetLine := rfl
@[simp] theorem State.onGroup_cert (s : State) (g : Fin 4) (f : Group → Group) : (s.onGroup g f).cert = s.cert := rfl
@[simp] theorem State.onGroup_lpu (s : State) (g : Fin 4) (f : Group → Group) : (s.onGroup g f).lpu = s.lpu := rfl
@[simp] theorem State.onGroup_outPass (s : State) (g : Fin 4) (f : Group → Group) : (s.onGroup g f).outPass = s.outPass := rfl
@[simp] theorem State.onGroup_retPass (s : State) (g : Fin 4) (f : Group → Group) : (s.onGroup g f).retPass = s.retPass := rfl
@[simp] theorem State.onGroup_sentD (s : State) (g : Fin 4) (f : Group → Group) : (s.onGroup g f).sentD = s.sentD := rfl
@[simp] theorem State.onGroup_sentM (s : State) (g : Fin 4) (f : Group → Group) : (s.onGroup g f).sentM = s.sentM := rfl
@[simp] theorem State.onGroup_slot (s : State) (g : Fin 4) (f : Group → Group) : (s.onGroup g f).slot = s.slot := rfl
@[simp] theorem State.onGroup_rollers (s : State) (g : Fin 4) (f : Group → Group) : (s.onGroup g f).rollers = s.rollers := rfl
@[simp] theorem State.onGroup_groups (s : State) (g : Fin 4) (f : Group → Group) : (s.onGroup g f).groups = s.groups.set g (f (s.groups.get g)) := rfl
@[simp] theorem State.onGroup_tables (s : State) (g : Fin 4) (f : Group → Group) : (s.onGroup g f).tables = s.tables := rfl
@[simp] theorem State.onGroup_svc (s : State) (g : Fin 4) (f : Group → Group) : (s.onGroup g f).svc = s.svc := rfl
@[simp] theorem State.onGroup_trace (s : State) (g : Fin 4) (f : Group → Group) : (s.onGroup g f).trace = s.trace := rfl
@[simp] theorem State.onGroup_store (s : State) (g : Fin 4) (f : Group → Group) : (s.onGroup g f).store = s.store := rfl
@[simp] theorem State.onGroup_pending (s : State) (g : Fin 4) (f : Group → Group) : (s.onGroup g f).pending = s.pending := rfl

@[simp] theorem State.onMembers_powered (s : State) (g : Fin 4) (f : Roller → Roller) : (s.onMembers g f).powered = s.powered := rfl
@[simp] theorem State.onMembers_resetLine (s : State) (g : Fin 4) (f : Roller → Roller) : (s.onMembers g f).resetLine = s.resetLine := rfl
@[simp] theorem State.onMembers_cert (s : State) (g : Fin 4) (f : Roller → Roller) : (s.onMembers g f).cert = s.cert := rfl
@[simp] theorem State.onMembers_lpu (s : State) (g : Fin 4) (f : Roller → Roller) : (s.onMembers g f).lpu = s.lpu := rfl
@[simp] theorem State.onMembers_outPass (s : State) (g : Fin 4) (f : Roller → Roller) : (s.onMembers g f).outPass = s.outPass := rfl
@[simp] theorem State.onMembers_retPass (s : State) (g : Fin 4) (f : Roller → Roller) : (s.onMembers g f).retPass = s.retPass := rfl
@[simp] theorem State.onMembers_sentD (s : State) (g : Fin 4) (f : Roller → Roller) : (s.onMembers g f).sentD = s.sentD := rfl
@[simp] theorem State.onMembers_sentM (s : State) (g : Fin 4) (f : Roller → Roller) : (s.onMembers g f).sentM = s.sentM := rfl
@[simp] theorem State.onMembers_slot (s : State) (g : Fin 4) (f : Roller → Roller) : (s.onMembers g f).slot = s.slot := rfl
@[simp] theorem State.onMembers_rollers (s : State) (g : Fin 4) (f : Roller → Roller) : (s.onMembers g f).rollers = s.rollers.mapIdx fun i r => if isMember s.tables.active g i then f r else r := rfl
@[simp] theorem State.onMembers_groups (s : State) (g : Fin 4) (f : Roller → Roller) : (s.onMembers g f).groups = s.groups := rfl
@[simp] theorem State.onMembers_tables (s : State) (g : Fin 4) (f : Roller → Roller) : (s.onMembers g f).tables = s.tables := rfl
@[simp] theorem State.onMembers_svc (s : State) (g : Fin 4) (f : Roller → Roller) : (s.onMembers g f).svc = s.svc := rfl
@[simp] theorem State.onMembers_trace (s : State) (g : Fin 4) (f : Roller → Roller) : (s.onMembers g f).trace = s.trace := rfl
@[simp] theorem State.onMembers_store (s : State) (g : Fin 4) (f : Roller → Roller) : (s.onMembers g f).store = s.store := rfl
@[simp] theorem State.onMembers_pending (s : State) (g : Fin 4) (f : Roller → Roller) : (s.onMembers g f).pending = s.pending := rfl

@[simp] theorem State.onLpu_powered (s : State) (f : Lpu → Lpu) : (s.onLpu f).powered = s.powered := rfl
@[simp] theorem State.onLpu_resetLine (s : State) (f : Lpu → Lpu) : (s.onLpu f).resetLine = s.resetLine := rfl
@[simp] theorem State.onLpu_cert (s : State) (f : Lpu → Lpu) : (s.onLpu f).cert = s.cert := rfl
@[simp] theorem State.onLpu_lpu (s : State) (f : Lpu → Lpu) : (s.onLpu f).lpu = f s.lpu := rfl
@[simp] theorem State.onLpu_outPass (s : State) (f : Lpu → Lpu) : (s.onLpu f).outPass = s.outPass := rfl
@[simp] theorem State.onLpu_retPass (s : State) (f : Lpu → Lpu) : (s.onLpu f).retPass = s.retPass := rfl
@[simp] theorem State.onLpu_sentD (s : State) (f : Lpu → Lpu) : (s.onLpu f).sentD = s.sentD := rfl
@[simp] theorem State.onLpu_sentM (s : State) (f : Lpu → Lpu) : (s.onLpu f).sentM = s.sentM := rfl
@[simp] theorem State.onLpu_slot (s : State) (f : Lpu → Lpu) : (s.onLpu f).slot = s.slot := rfl
@[simp] theorem State.onLpu_rollers (s : State) (f : Lpu → Lpu) : (s.onLpu f).rollers = s.rollers := rfl
@[simp] theorem State.onLpu_groups (s : State) (f : Lpu → Lpu) : (s.onLpu f).groups = s.groups := rfl
@[simp] theorem State.onLpu_tables (s : State) (f : Lpu → Lpu) : (s.onLpu f).tables = s.tables := rfl
@[simp] theorem State.onLpu_svc (s : State) (f : Lpu → Lpu) : (s.onLpu f).svc = s.svc := rfl
@[simp] theorem State.onLpu_trace (s : State) (f : Lpu → Lpu) : (s.onLpu f).trace = s.trace := rfl
@[simp] theorem State.onLpu_store (s : State) (f : Lpu → Lpu) : (s.onLpu f).store = s.store := rfl
@[simp] theorem State.onLpu_pending (s : State) (f : Lpu → Lpu) : (s.onLpu f).pending = s.pending := rfl

@[simp] theorem State.onSlot_powered (s : State) (f : SlotEngine → SlotEngine) : (s.onSlot f).powered = s.powered := rfl
@[simp] theorem State.onSlot_resetLine (s : State) (f : SlotEngine → SlotEngine) : (s.onSlot f).resetLine = s.resetLine := rfl
@[simp] theorem State.onSlot_cert (s : State) (f : SlotEngine → SlotEngine) : (s.onSlot f).cert = s.cert := rfl
@[simp] theorem State.onSlot_lpu (s : State) (f : SlotEngine → SlotEngine) : (s.onSlot f).lpu = s.lpu := rfl
@[simp] theorem State.onSlot_outPass (s : State) (f : SlotEngine → SlotEngine) : (s.onSlot f).outPass = s.outPass := rfl
@[simp] theorem State.onSlot_retPass (s : State) (f : SlotEngine → SlotEngine) : (s.onSlot f).retPass = s.retPass := rfl
@[simp] theorem State.onSlot_sentD (s : State) (f : SlotEngine → SlotEngine) : (s.onSlot f).sentD = s.sentD := rfl
@[simp] theorem State.onSlot_sentM (s : State) (f : SlotEngine → SlotEngine) : (s.onSlot f).sentM = s.sentM := rfl
@[simp] theorem State.onSlot_slot (s : State) (f : SlotEngine → SlotEngine) : (s.onSlot f).slot = f s.slot := rfl
@[simp] theorem State.onSlot_rollers (s : State) (f : SlotEngine → SlotEngine) : (s.onSlot f).rollers = s.rollers := rfl
@[simp] theorem State.onSlot_groups (s : State) (f : SlotEngine → SlotEngine) : (s.onSlot f).groups = s.groups := rfl
@[simp] theorem State.onSlot_tables (s : State) (f : SlotEngine → SlotEngine) : (s.onSlot f).tables = s.tables := rfl
@[simp] theorem State.onSlot_svc (s : State) (f : SlotEngine → SlotEngine) : (s.onSlot f).svc = s.svc := rfl
@[simp] theorem State.onSlot_trace (s : State) (f : SlotEngine → SlotEngine) : (s.onSlot f).trace = s.trace := rfl
@[simp] theorem State.onSlot_store (s : State) (f : SlotEngine → SlotEngine) : (s.onSlot f).store = s.store := rfl
@[simp] theorem State.onSlot_pending (s : State) (f : SlotEngine → SlotEngine) : (s.onSlot f).pending = s.pending := rfl

@[simp] theorem State.onTables_powered (s : State) (f : TableManager → TableManager) : (s.onTables f).powered = s.powered := rfl
@[simp] theorem State.onTables_resetLine (s : State) (f : TableManager → TableManager) : (s.onTables f).resetLine = s.resetLine := rfl
@[simp] theorem State.onTables_cert (s : State) (f : TableManager → TableManager) : (s.onTables f).cert = s.cert := rfl
@[simp] theorem State.onTables_lpu (s : State) (f : TableManager → TableManager) : (s.onTables f).lpu = s.lpu := rfl
@[simp] theorem State.onTables_outPass (s : State) (f : TableManager → TableManager) : (s.onTables f).outPass = s.outPass := rfl
@[simp] theorem State.onTables_retPass (s : State) (f : TableManager → TableManager) : (s.onTables f).retPass = s.retPass := rfl
@[simp] theorem State.onTables_sentD (s : State) (f : TableManager → TableManager) : (s.onTables f).sentD = s.sentD := rfl
@[simp] theorem State.onTables_sentM (s : State) (f : TableManager → TableManager) : (s.onTables f).sentM = s.sentM := rfl
@[simp] theorem State.onTables_slot (s : State) (f : TableManager → TableManager) : (s.onTables f).slot = s.slot := rfl
@[simp] theorem State.onTables_rollers (s : State) (f : TableManager → TableManager) : (s.onTables f).rollers = s.rollers := rfl
@[simp] theorem State.onTables_groups (s : State) (f : TableManager → TableManager) : (s.onTables f).groups = s.groups := rfl
@[simp] theorem State.onTables_tables (s : State) (f : TableManager → TableManager) : (s.onTables f).tables = f s.tables := rfl
@[simp] theorem State.onTables_svc (s : State) (f : TableManager → TableManager) : (s.onTables f).svc = s.svc := rfl
@[simp] theorem State.onTables_trace (s : State) (f : TableManager → TableManager) : (s.onTables f).trace = s.trace := rfl
@[simp] theorem State.onTables_store (s : State) (f : TableManager → TableManager) : (s.onTables f).store = s.store := rfl
@[simp] theorem State.onTables_pending (s : State) (f : TableManager → TableManager) : (s.onTables f).pending = s.pending := rfl

@[simp] theorem State.onSvc_powered (s : State) (f : Responder → Responder) : (s.onSvc f).powered = s.powered := rfl
@[simp] theorem State.onSvc_resetLine (s : State) (f : Responder → Responder) : (s.onSvc f).resetLine = s.resetLine := rfl
@[simp] theorem State.onSvc_cert (s : State) (f : Responder → Responder) : (s.onSvc f).cert = s.cert := rfl
@[simp] theorem State.onSvc_lpu (s : State) (f : Responder → Responder) : (s.onSvc f).lpu = s.lpu := rfl
@[simp] theorem State.onSvc_outPass (s : State) (f : Responder → Responder) : (s.onSvc f).outPass = s.outPass := rfl
@[simp] theorem State.onSvc_retPass (s : State) (f : Responder → Responder) : (s.onSvc f).retPass = s.retPass := rfl
@[simp] theorem State.onSvc_sentD (s : State) (f : Responder → Responder) : (s.onSvc f).sentD = s.sentD := rfl
@[simp] theorem State.onSvc_sentM (s : State) (f : Responder → Responder) : (s.onSvc f).sentM = s.sentM := rfl
@[simp] theorem State.onSvc_slot (s : State) (f : Responder → Responder) : (s.onSvc f).slot = s.slot := rfl
@[simp] theorem State.onSvc_rollers (s : State) (f : Responder → Responder) : (s.onSvc f).rollers = s.rollers := rfl
@[simp] theorem State.onSvc_groups (s : State) (f : Responder → Responder) : (s.onSvc f).groups = s.groups := rfl
@[simp] theorem State.onSvc_tables (s : State) (f : Responder → Responder) : (s.onSvc f).tables = s.tables := rfl
@[simp] theorem State.onSvc_svc (s : State) (f : Responder → Responder) : (s.onSvc f).svc = f s.svc := rfl
@[simp] theorem State.onSvc_trace (s : State) (f : Responder → Responder) : (s.onSvc f).trace = s.trace := rfl
@[simp] theorem State.onSvc_store (s : State) (f : Responder → Responder) : (s.onSvc f).store = s.store := rfl
@[simp] theorem State.onSvc_pending (s : State) (f : Responder → Responder) : (s.onSvc f).pending = s.pending := rfl

@[simp] theorem State.onTrace_powered (s : State) (f : TraceBuffer → TraceBuffer) : (s.onTrace f).powered = s.powered := rfl
@[simp] theorem State.onTrace_resetLine (s : State) (f : TraceBuffer → TraceBuffer) : (s.onTrace f).resetLine = s.resetLine := rfl
@[simp] theorem State.onTrace_cert (s : State) (f : TraceBuffer → TraceBuffer) : (s.onTrace f).cert = s.cert := rfl
@[simp] theorem State.onTrace_lpu (s : State) (f : TraceBuffer → TraceBuffer) : (s.onTrace f).lpu = s.lpu := rfl
@[simp] theorem State.onTrace_outPass (s : State) (f : TraceBuffer → TraceBuffer) : (s.onTrace f).outPass = s.outPass := rfl
@[simp] theorem State.onTrace_retPass (s : State) (f : TraceBuffer → TraceBuffer) : (s.onTrace f).retPass = s.retPass := rfl
@[simp] theorem State.onTrace_sentD (s : State) (f : TraceBuffer → TraceBuffer) : (s.onTrace f).sentD = s.sentD := rfl
@[simp] theorem State.onTrace_sentM (s : State) (f : TraceBuffer → TraceBuffer) : (s.onTrace f).sentM = s.sentM := rfl
@[simp] theorem State.onTrace_slot (s : State) (f : TraceBuffer → TraceBuffer) : (s.onTrace f).slot = s.slot := rfl
@[simp] theorem State.onTrace_rollers (s : State) (f : TraceBuffer → TraceBuffer) : (s.onTrace f).rollers = s.rollers := rfl
@[simp] theorem State.onTrace_groups (s : State) (f : TraceBuffer → TraceBuffer) : (s.onTrace f).groups = s.groups := rfl
@[simp] theorem State.onTrace_tables (s : State) (f : TraceBuffer → TraceBuffer) : (s.onTrace f).tables = s.tables := rfl
@[simp] theorem State.onTrace_svc (s : State) (f : TraceBuffer → TraceBuffer) : (s.onTrace f).svc = s.svc := rfl
@[simp] theorem State.onTrace_trace (s : State) (f : TraceBuffer → TraceBuffer) : (s.onTrace f).trace = f s.trace := rfl
@[simp] theorem State.onTrace_store (s : State) (f : TraceBuffer → TraceBuffer) : (s.onTrace f).store = s.store := rfl
@[simp] theorem State.onTrace_pending (s : State) (f : TraceBuffer → TraceBuffer) : (s.onTrace f).pending = s.pending := rfl

@[simp] theorem State.onStore_powered (s : State) (f : Store → Store) : (s.onStore f).powered = s.powered := rfl
@[simp] theorem State.onStore_resetLine (s : State) (f : Store → Store) : (s.onStore f).resetLine = s.resetLine := rfl
@[simp] theorem State.onStore_cert (s : State) (f : Store → Store) : (s.onStore f).cert = s.cert := rfl
@[simp] theorem State.onStore_lpu (s : State) (f : Store → Store) : (s.onStore f).lpu = s.lpu := rfl
@[simp] theorem State.onStore_outPass (s : State) (f : Store → Store) : (s.onStore f).outPass = s.outPass := rfl
@[simp] theorem State.onStore_retPass (s : State) (f : Store → Store) : (s.onStore f).retPass = s.retPass := rfl
@[simp] theorem State.onStore_sentD (s : State) (f : Store → Store) : (s.onStore f).sentD = s.sentD := rfl
@[simp] theorem State.onStore_sentM (s : State) (f : Store → Store) : (s.onStore f).sentM = s.sentM := rfl
@[simp] theorem State.onStore_slot (s : State) (f : Store → Store) : (s.onStore f).slot = s.slot := rfl
@[simp] theorem State.onStore_rollers (s : State) (f : Store → Store) : (s.onStore f).rollers = s.rollers := rfl
@[simp] theorem State.onStore_groups (s : State) (f : Store → Store) : (s.onStore f).groups = s.groups := rfl
@[simp] theorem State.onStore_tables (s : State) (f : Store → Store) : (s.onStore f).tables = s.tables := rfl
@[simp] theorem State.onStore_svc (s : State) (f : Store → Store) : (s.onStore f).svc = s.svc := rfl
@[simp] theorem State.onStore_trace (s : State) (f : Store → Store) : (s.onStore f).trace = s.trace := rfl
@[simp] theorem State.onStore_store (s : State) (f : Store → Store) : (s.onStore f).store = f s.store := rfl
@[simp] theorem State.onStore_pending (s : State) (f : Store → Store) : (s.onStore f).pending = s.pending := rfl

end Sys2Proof.Machine
end

