-- ==== Sys2Proof/Laws/Motion.lean ====
section
/-! SUPPORT. What the operations on rollers and groups can touch: the group operations differ from the state they are given in rollers and
groups alone. -/

namespace Sys2Proof.Machine

theorem OnlyMotion.refl (s : State) : OnlyMotion s s := rfl

theorem OnlyMotion.trans {s t u : State} (h : OnlyMotion s t) (k : OnlyMotion t u) : OnlyMotion s u := by
  unfold OnlyMotion at *
  rw [k, h]

theorem onGroup_onlyMotion (s : State) (g : Fin 4) (f : Group → Group) : OnlyMotion s (s.onGroup g f) := rfl

theorem onRoller_onlyMotion (s : State) (i : Fin 4) (f : Roller → Roller) : OnlyMotion s (s.onRoller i f) := rfl

theorem onMembers_onlyMotion (s : State) (g : Fin 4) (f : Roller → Roller) : OnlyMotion s (s.onMembers g f) := rfl

theorem discardTrack_onlyMotion (g : Fin 4) (s : State) : OnlyMotion s (discardTrack g s) := rfl

theorem forceMembers_onlyMotion (g : Fin 4) (s : State) : OnlyMotion s (forceMembers g s) := rfl

theorem enterStopping_onlyMotion (c : StopCause) (g : Fin 4) (s : State) : OnlyMotion s (enterStopping c g s) := rfl

theorem enterFaulted_onlyMotion (g : Fin 4) (s : State) : OnlyMotion s (enterFaulted g s) := rfl

theorem faultIfNoneReleased_onlyMotion (g : Fin 4) (s : State) : OnlyMotion s (faultIfNoneReleased g s) := by
  unfold faultIfNoneReleased
  split
  · rfl
  · exact enterFaulted_onlyMotion g s

theorem windDownTest_onlyMotion (g : Fin 4) (s : State) : OnlyMotion s (windDownTest g s) := by
  unfold windDownTest
  split
  · exact enterFaulted_onlyMotion g s
  · rfl

/-- A hard fault event acts on rollers and groups alone (07 R126). -/
theorem groupFault_onlyMotion (g : Fin 4) (s : State) : OnlyMotion s (groupFault g s) := by
  unfold groupFault
  split
  · rfl
  · rfl
  · rfl
  · rfl
  · exact (enterStopping_onlyMotion _ g s).trans (faultIfNoneReleased_onlyMotion g _)
  · exact (enterStopping_onlyMotion _ g s).trans (faultIfNoneReleased_onlyMotion g _)
  · exact (enterStopping_onlyMotion _ g s).trans (faultIfNoneReleased_onlyMotion g _)
  · split
    · exact windDownTest_onlyMotion g s
    · exact (onGroup_onlyMotion s g _).trans (faultIfNoneReleased_onlyMotion g _)

theorem hardFaultEvent_onlyMotion (i : Fin 4) (s : State) : OnlyMotion s (hardFaultEvent i s) := by
  unfold hardFaultEvent
  split
  · exact groupFault_onlyMotion _ s
  · rfl

theorem lineFaultAt_onlyMotion (g : Fin 4) (s : State) : OnlyMotion s (lineFaultAt g s) := by
  unfold lineFaultAt
  split <;> rfl

/-- The line fault event acts on rollers and groups alone (07 R127). -/
theorem lineFault_onlyMotion (s : State) : OnlyMotion s (lineFault s) :=
  (((lineFaultAt_onlyMotion 0 s).trans (lineFaultAt_onlyMotion 1 _)).trans (lineFaultAt_onlyMotion 2 _)).trans
    (lineFaultAt_onlyMotion 3 _)

theorem settleExpiry_onlyMotion (g : Fin 4) (s : State) : OnlyMotion s (settleExpiry g s) := rfl

theorem settleAdvance_onlyMotion (g : Fin 4) (k n : Nat) (s : State) : OnlyMotion s (settleAdvance g k n s) := by
  unfold settleAdvance
  simp only
  split <;> rfl

theorem stopIfNoneReleased_onlyMotion (g : Fin 4) (s : State) : OnlyMotion s (stopIfNoneReleased g s) := by
  unfold stopIfNoneReleased
  split <;> rfl

theorem completeStop_onlyMotion (g : Fin 4) (s : State) : OnlyMotion s (completeStop g s) := by
  unfold completeStop
  split
  · exact ((onGroup_onlyMotion s g _).trans (onMembers_onlyMotion _ g _)).trans (stopIfNoneReleased_onlyMotion g _)
  · rfl

theorem stopTests_onlyMotion (g : Fin 4) (k : Nat) (s : State) : OnlyMotion s (stopTests g k s) := by
  unfold stopTests settleWindDown settleStep
  repeat' split
  all_goals first
    | rfl
    | exact settleAdvance_onlyMotion ..
    | exact completeStop_onlyMotion ..

theorem engagingTests_onlyMotion (g : Fin 4) (s : State) : OnlyMotion s (engagingTests g s) := by
  unfold engagingTests
  repeat' split
  all_goals rfl

theorem disengagingTest_onlyMotion (g : Fin 4) (s : State) : OnlyMotion s (disengagingTest g s) := by
  unfold disengagingTest
  split <;> rfl

theorem groupTests_onlyMotion (g : Fin 4) (k : Nat) (s : State) : OnlyMotion s (groupTests g k s) := by
  unfold groupTests
  split
  · exact (((stopTests_onlyMotion g k s).trans (windDownTest_onlyMotion g _)).trans (engagingTests_onlyMotion g _)).trans
      (disengagingTest_onlyMotion g _)
  · rfl

/-- A group's step acts on rollers and groups alone (04 R58). -/
theorem stepGroup_onlyMotion (g : Fin 4) (k : Nat) (s : State) : OnlyMotion s (stepGroup g k s) := by
  unfold stepGroup handOn
  exact ((onGroup_onlyMotion s g _).trans (groupTests_onlyMotion g k _)).trans (onGroup_onlyMotion _ g _)

theorem endTrack_onlyMotion (g : Fin 4) (s : State) : OnlyMotion s (endTrack g s) := rfl

theorem moveTrackBlend_onlyMotion (g : Fin 4) (k : Nat) (s : State) : OnlyMotion s (moveTrackBlend g k s) := by
  unfold moveTrackBlend
  simp only
  split <;> rfl

theorem advanceRefs_onlyMotion (g : Fin 4) (k : Nat) (s : State) : OnlyMotion s (advanceRefs g k s) := by
  unfold advanceRefs
  split <;> rfl

theorem checkTrack_onlyMotion (g : Fin 4) (k : Nat) (s : State) : OnlyMotion s (checkTrack g k s) := by
  unfold checkTrack
  simp only
  split
  · exact (advanceRefs_onlyMotion g k s).trans ((enterStopping_onlyMotion _ g _).trans (onGroup_onlyMotion _ g _))
  · exact advanceRefs_onlyMotion g k s

theorem markClamp_onlyMotion (g : Fin 4) (comps : Quad Composed) (s : State) : OnlyMotion s (markClamp g comps s) := by
  unfold markClamp
  split <;> rfl

theorem keepAll_onlyMotion (g : Fin 4) (comps : Quad Composed) (s : State) : OnlyMotion s (keepAll g comps s) := rfl

theorem blendStep_onlyMotion (g : Fin 4) (k : Nat) (s : State) : OnlyMotion s (blendStep g k s) := by
  unfold blendStep
  split
  · exact moveTrackBlend_onlyMotion g k s
  · rfl

/-- A composition acts on rollers and groups alone (05 R77). -/
theorem composeGroup_onlyMotion (g : Fin 4) (k : Nat) (sp : State × Quad Int) : OnlyMotion sp.1 (composeGroup g k sp).1 :=
  (((checkTrack_onlyMotion g k sp.1).trans (markClamp_onlyMotion g _ _)).trans (keepAll_onlyMotion g _ _)).trans
    (blendStep_onlyMotion g k _)

theorem groupTakes_onlyMotion (k : Nat) (g : Fin 4) (sp : State × Quad Int) : OnlyMotion sp.1 (groupTakes k g sp).1 :=
  (stepGroup_onlyMotion g k sp.1).trans (composeGroup_onlyMotion g k _)

/-- The steps and compositions of the four groups act on rollers and groups alone. -/
theorem groupsTake_onlyMotion (k : Nat) (s : State) : OnlyMotion s (groupsTake k s).1 :=
  (((groupTakes_onlyMotion k 0 _).trans (groupTakes_onlyMotion k 1 _)).trans (groupTakes_onlyMotion k 2 _)).trans
    (groupTakes_onlyMotion k 3 _)

theorem channelTakes_onlyMotion (k : Nat) (resync : Bool) (i : Fin 4) (s : State) : OnlyMotion s (channelTakes k resync i s) := by
  unfold channelTakes
  split
  · rfl
  · simp only
    split
    · exact (onRoller_onlyMotion s i _).trans (hardFaultEvent_onlyMotion i _)
    · rfl

/-- The channels act on rollers and groups, and leave every in-field buffer empty (02 R26, 03 R39). -/
theorem channelsTake_frame (order : List (Fin 4)) (k : Nat) (resync : Bool) (s : State) :
    ∃ u, OnlyMotion s u ∧ channelsTake order k resync s = clearBuffers u := by
  refine ⟨_, ?_, rfl⟩
  generalize channelOrder order = l
  induction l generalizing s with
  | nil => rfl
  | cons i is ih => exact (channelTakes_onlyMotion k resync i s).trans (ih _)

/-- The results of a group operation on what it does not touch. -/
theorem OnlyMotion.fields {s t : State} (h : OnlyMotion s t) :
    t.powered = s.powered ∧ t.resetLine = s.resetLine ∧ t.cert = s.cert ∧ t.lpu = s.lpu ∧ t.outPass = s.outPass ∧ t.retPass = s.retPass
      ∧ t.sentD = s.sentD ∧ t.sentM = s.sentM ∧ t.slot = s.slot ∧ t.tables = s.tables ∧ t.svc = s.svc ∧ t.trace = s.trace
      ∧ t.store = s.store ∧ t.pending = s.pending := by
  unfold OnlyMotion at h
  rw [h]
  simp

end Sys2Proof.Machine
end

