-- ==== Sys2Proof/Laws/Cycle.lean ====
section
/-! SUPPORT. What the Table Manager's work, publication, tracing and a whole accepted cycle can touch. -/

namespace Sys2Proof.Machine

/-- Two states differ at most in tables, rollers and groups. -/
def OnlyApplied (s t : State) : Prop := t = { s with tables := t.tables, rollers := t.rollers, groups := t.groups }

theorem OnlyApplied.refl (s : State) : OnlyApplied s s := rfl

theorem OnlyApplied.trans {s t u : State} (h : OnlyApplied s t) (k : OnlyApplied t u) : OnlyApplied s u := by
  unfold OnlyApplied at *
  rw [k, h]

/-- An application acts on the active copies, the groups and the rollers (08 R149). -/
theorem applyTables_onlyApplied (new : Tables) (blend : Option Nat) (s : State) : OnlyApplied s (applyTables new blend s) := rfl

theorem onTables_onlyApplied (s : State) (f : TableManager → TableManager) : OnlyApplied s (s.onTables f) := rfl

theorem takeLiveDue_onlyApplied (p : Place) (s : State) : OnlyApplied s (takeLiveDue p s) := by
  unfold takeLiveDue
  split
  · simp only
    split <;> rfl
  · rfl

/-- What an accepted cycle does with one live-due mark (08 R141): nothing where it is clear, otherwise the mark goes and the entry is
copied, or dropped where a test fails. -/
theorem takeLiveDue_cases (p : Place) (s : State) :
    let e := s.tables.staging.entryAt p
    let new := s.tables.active.putEntry p e
    let taken := s.onTables fun x => { x with due := x.due.put p false }
    (s.tables.due.at p = false ∧ takeLiveDue p s = s)
      ∨ (s.tables.due.at p = true ∧ (liveCheck s.tables.active p e && groupChangeOk s new) = true ∧ takeLiveDue p s = applyTables new none taken)
      ∨ (s.tables.due.at p = true ∧ (liveCheck s.tables.active p e && groupChangeOk s new) = false ∧ takeLiveDue p s = dropLive taken) := by
  intro e new taken
  unfold takeLiveDue
  cases h : s.tables.due.at p
  · exact .inl ⟨rfl, rfl⟩
  · cases k : liveCheck s.tables.active p e && groupChangeOk s new
    · exact .inr (.inr ⟨rfl, rfl, by simp only [e, new] at k; simp [k, taken]⟩)
    · exact .inr (.inl ⟨rfl, rfl, by simp only [e, new] at k; simp [k, taken, new, e]⟩)

/-- What HALT does with one live-due mark (08 R136, R141; log 14): nothing where it is clear, otherwise the mark goes and the entry is
copied where it passes the live check. -/
theorem haltLiveDue_cases (p : Place) (s : State) :
    let e := s.tables.staging.entryAt p
    let taken := s.onTables fun x => { x with due := x.due.put p false }
    (s.tables.due.at p = false ∧ haltLiveDue p s = s)
      ∨ (s.tables.due.at p = true ∧ liveCheck s.tables.active p e = true
          ∧ haltLiveDue p s = applyTables (s.tables.active.putEntry p e) none taken)
      ∨ (s.tables.due.at p = true ∧ liveCheck s.tables.active p e = false ∧ haltLiveDue p s = taken) := by
  unfold haltLiveDue
  cases h : s.tables.due.at p
  · exact .inl ⟨rfl, rfl⟩
  · cases k : liveCheck s.tables.active p (s.tables.staging.entryAt p)
    · refine .inr (.inr ⟨rfl, k, ?_⟩)
      simp [k]
    · refine .inr (.inl ⟨rfl, k, ?_⟩)
      simp [k]

theorem haltLiveDue_onlyApplied (p : Place) (s : State) : OnlyApplied s (haltLiveDue p s) := by
  unfold haltLiveDue
  simp only
  repeat' split
  all_goals rfl

/-- What is done with a due record (08 R148): its tables are unpinned and it is applied, or dropped where a test fails. -/
theorem takeRecord_cases (r : ChangeRecord) (s : State) :
    let new := Tables.merge (maskNames r.mask) s.tables.staging s.tables.active
    let taken := s.onTables fun x => { x with ctl := unpin r.mask x.ctl }
    let ok := commitCheck (maskNames r.mask) s.tables.staging s.tables.active && (!maskNames r.mask .rollers || groupChangeOk s new)
    (ok = true ∧ takeRecord r s = applyTables new r.blend taken)
      ∨ (ok = false ∧ takeRecord r s = taken.onTables fun x => { x with flags := { x.flags with commitDropped := true } }) := by
  intro new taken ok
  unfold takeRecord
  cases k : ok
  · exact .inr ⟨rfl, by simp only [ok, new] at k; simp [k, taken]⟩
  · exact .inl ⟨rfl, by simp only [ok, new] at k; simp [k, taken, new]⟩

theorem takeRecord_onlyApplied (r : ChangeRecord) (s : State) : OnlyApplied s (takeRecord r s) := by
  unfold takeRecord
  simp only
  split <;> rfl

theorem takeRecords_onlyApplied (e : Nat) (l : List ChangeRecord) (s : State) : OnlyApplied s (takeRecords e l s) := by
  induction l generalizing s with
  | nil => rfl
  | cons r rest ih =>
    unfold takeRecords
    split
    · exact (takeRecord_onlyApplied r s).trans (ih _)
    · rfl

theorem foldl_onlyApplied {α : Type} (f : State → α → State) (h : ∀ s a, OnlyApplied s (f s a)) (l : List α) (s : State) :
    OnlyApplied s (l.foldl f s) := by
  induction l generalizing s with
  | nil => rfl
  | cons a l ih => exact (h s a).trans (ih _)

theorem takeAllLiveDue_onlyApplied (s : State) : OnlyApplied s (takeAllLiveDue s) :=
  foldl_onlyApplied _ (fun s p => takeLiveDue_onlyApplied p s) _ s

theorem haltAllLiveDue_onlyApplied (s : State) : OnlyApplied s (haltAllLiveDue s) :=
  foldl_onlyApplied _ (fun s p => haltLiveDue_onlyApplied p s) _ s

/-- The Table Manager's work at an accepted cycle acts on tables, rollers and groups alone (08 R147). -/
theorem tableWork_onlyApplied (e : Nat) (s : State) : OnlyApplied s (tableWork e s) :=
  (takeAllLiveDue_onlyApplied s).trans (takeRecords_onlyApplied e _ _)

/-- Publication gives the Slot Engine the set of the stages as they stand (05 R92, R93; 02 R28). -/
theorem publish_current (outs : Quad Int) (s : State) : (publish outs s).slot.current = setOf s outs := rfl

/-- Publication makes each roller's setpoint its previous setpoint (05 R93). -/
theorem publish_prevSet (outs : Quad Int) (s : State) (i : Fin 4) :
    ((publish outs s).rollers.get i).coup.prevSet = outs.get i := by
  simp only [publish, Quad.get_mapIdx]
  unfold testApply
  repeat' split
  all_goals rfl

/-- Publication records the stage the set was composed from as the published stage (07 R113). -/
theorem publish_published (outs : Quad Int) (s : State) (i : Fin 4) :
    ((publish outs s).rollers.get i).published = (s.rollers.get i).seq.stage := by
  simp only [publish, Quad.get_mapIdx, State.onSlot_rollers]
  unfold testApply
  repeat' split
  all_goals rfl

/-- What the trace does at an accepted cycle (11 R174): nothing while it is off, a count below d, or a count that reaches d. -/
theorem traceWork_cases (e : Nat) (s : State) :
    (s.trace.enable = false ∧ traceWork e s = s)
      ∨ (s.trace.enable = true ∧ s.trace.counter + 1 ≠ s.trace.decimation
          ∧ traceWork e s = s.onTrace fun b => { b with counter := b.counter + 1, lastCounted := some e })
      ∨ (s.trace.enable = true ∧ s.trace.counter + 1 = s.trace.decimation ∧ traceWork e s = traceReaches e s) := by
  unfold traceWork reachesNext
  cases h : s.trace.enable
  · exact .inl ⟨rfl, rfl⟩
  · by_cases k : s.trace.counter + 1 = s.trace.decimation
    · exact .inr (.inr ⟨rfl, k, by simp [k]⟩)
    · exact .inr (.inl ⟨rfl, k, by simp [k]⟩)

theorem traceWork_only (e : Nat) (s : State) : traceWork e s = { s with trace := (traceWork e s).trace } := by
  unfold traceWork
  repeat' split
  all_goals rfl

/-- Two states differ at most in what an accepted cycle works on. -/
def OnlyCycle (s t : State) : Prop :=
  t = { s with slot := t.slot, rollers := t.rollers, groups := t.groups, tables := t.tables, trace := t.trace }

theorem OnlyCycle.trans {s t u : State} (h : OnlyCycle s t) (k : OnlyCycle t u) : OnlyCycle s u := by
  unfold OnlyCycle at *
  rw [k, h]

theorem OnlyMotion.cycle {s t : State} (h : OnlyMotion s t) : OnlyCycle s t := by
  unfold OnlyMotion OnlyCycle at *
  rw [h]

theorem OnlyApplied.cycle {s t : State} (h : OnlyApplied s t) : OnlyCycle s t := by
  unfold OnlyApplied OnlyCycle at *
  rw [h]

theorem traceWork_cycle (e : Nat) (s : State) : OnlyCycle s (traceWork e s) := by
  unfold OnlyCycle
  rw [traceWork_only]

theorem publish_cycle (outs : Quad Int) (s : State) : OnlyCycle s (publish outs s) := rfl

theorem formImage_cycle (e : Nat) (s : State) : OnlyCycle s (formImage e s) := rfl

theorem channelsTake_cycle (order : List (Fin 4)) (k : Nat) (resync : Bool) (s : State) : OnlyCycle s (channelsTake order k resync s) := by
  obtain ⟨u, h, e⟩ := channelsTake_frame order k resync s
  rw [e]
  exact h.cycle.trans rfl

/-- An accepted cycle acts on the Slot Engine, the rollers, the groups, the tables and the Trace Buffer alone (01 R17). -/
theorem acceptedCycle_only (order : List (Fin 4)) (e k : Nat) (resync : Bool) (s : State) :
    OnlyCycle s (acceptedCycle order e k resync s) := by
  unfold acceptedCycle
  have h1 := (tableWork_onlyApplied e s).cycle
  have h2 := h1.trans (channelsTake_cycle order k resync (tableWork e s))
  have h3 := h2.trans (groupsTake_onlyMotion k (channelsTake order k resync (tableWork e s))).cycle
  exact ((h3.trans (publish_cycle _ _)).trans (traceWork_cycle e _)).trans (formImage_cycle e _)

/-- What an accepted cycle leaves as it was. -/
theorem OnlyCycle.fields {s t : State} (h : OnlyCycle s t) :
    t.powered = s.powered ∧ t.resetLine = s.resetLine ∧ t.cert = s.cert ∧ t.lpu = s.lpu ∧ t.outPass = s.outPass ∧ t.retPass = s.retPass
      ∧ t.sentD = s.sentD ∧ t.sentM = s.sentM ∧ t.svc = s.svc ∧ t.store = s.store ∧ t.pending = s.pending := by
  unfold OnlyCycle at h
  rw [h]
  simp

/-- The report image after an accepted cycle is formed from the state the cycle leaves (02 R34). -/
theorem acceptedCycle_image (order : List (Fin 4)) (e k : Nat) (resync : Bool) (s : State) :
    (acceptedCycle order e k resync s).slot.image = some (imageOf e (acceptedCycle order e k resync s)) := by
  unfold acceptedCycle
  simp only
  generalize traceWork e _ = u
  rfl

end Sys2Proof.Machine
end

