-- ==== Sys2Proof/Laws/PerInstr.lean ====
section
/-! SUPPORT. What is said of every command as syntax. Carried: the request a command stands for, put into the kind, the length and the payload of a
service area by 13 Section 13.4, is read back from them as the same request. -/

namespace Sys2Proof.Laws

open Sys2Proof.Machine

/-- The request a command stands for. -/
def requestIn : Instr → Option Request
  | .identify => some .identify
  | .readStatus => some .readStatus
  | .clearFlags m => some (.clearFlags m)
  | .start => some .start
  | .halt => some .halt
  | .groupEngage g => some (.group g 1)
  | .groupRun g => some (.group g 2)
  | .groupTrack g => some (.group g 3)
  | .groupUntrack g => some (.group g 4)
  | .groupStop g => some (.group g 5)
  | .groupDisengage g => some (.group g 6)
  | .groupClear g => some (.group g 7)
  | .readEntry t i c => some (.readEntry t i c)
  | .writeEntry t i e => some (.writeEntry t i e)
  | .setLiveOn t => some (.setLive t 1)
  | .setLiveOff t => some (.setLive t 0)
  | .commit m p e b => some (.commit m p e b)
  | .cancel m => some (.cancel m)
  | .lock m => some (.lock m 0)
  | .unlock m => some (.lock m 1)
  | .lockDown m => some (.lock m 2)
  | .freeze => some .freeze
  | .thaw => some .thaw
  | .traceSet g d e => some (.traceSet g d e)
  | .readTrace => some .readTrace
  | .storeSave => some .storeSave
  | .restart => some .restart
  | _ => none

/-- The code of a request (13 Section 13.4). -/
def kindOf : Request → Byte
  | .identify => 1
  | .readStatus => 2
  | .clearFlags _ => 3
  | .start => 4
  | .halt => 5
  | .group _ _ => 6
  | .readEntry _ _ _ => 7
  | .writeEntry _ _ _ => 8
  | .setLive _ _ => 9
  | .commit _ _ _ _ => 10
  | .cancel _ => 11
  | .lock _ _ => 12
  | .freeze => 13
  | .thaw => 14
  | .traceSet _ _ _ => 15
  | .readTrace => 16
  | .storeSave => 17
  | .restart => 18

/-- The payload of a request (13 Section 13.4). -/
def payloadOf : Request → List Byte
  | .clearFlags m => leBytes 8 m.toNat
  | .group g a => [g, a]
  | .readEntry t i c => [t, i, c]
  | .writeEntry t i e => t :: i :: e
  | .setLive t v => [t, v]
  | .commit m p e b => m :: p :: (leBytes 8 e.toNat ++ leBytes 2 b.toNat)
  | .cancel m => [m]
  | .lock m v => [m, v]
  | .traceSet g d e => [g, d, e]
  | _ => []

/-- An entry a frame can carry has the size of the table it names. -/
def framed : Request → Prop
  | .writeEntry t _ e => ∃ tb, tableOf t = some tb ∧ e.length = entrySize tb
  | _ => True

/-- The request of a command is read back from the kind and the payload that carry it, and its length is the fixed one (10 R163). -/
def Carried.Statement (i : Instr) : Prop :=
  ∀ r, requestIn i = some r → framed r →
    requestOf (kindOf r) (payloadOf r) = some r ∧ requestLen (kindOf r) (payloadOf r) = some (payloadOf r).length

theorem Carried.powerUp : Carried.Statement .powerUp := by
  intro r h
  exact absurd (show (none : Option Request) = some r from h) (by simp)

theorem Carried.resetAssert (sentAtD sentAtM : Nat) : Carried.Statement (.resetAssert sentAtD sentAtM) := by
  intro r h
  exact absurd (show (none : Option Request) = some r from h) (by simp)

theorem Carried.resetRelease : Carried.Statement .resetRelease := by
  intro r h
  exact absurd (show (none : Option Request) = some r from h) (by simp)

theorem Carried.storeLoadComplete : Carried.Statement .storeLoadComplete := by
  intro r h
  exact absurd (show (none : Option Request) = some r from h) (by simp)

theorem Carried.passHeader (port : Port) (frame : LinkFrame) : Carried.Statement (.passHeader port frame) := by
  intro r h
  exact absurd (show (none : Option Request) = some r from h) (by simp)

theorem Carried.frameCutShort (port : Port) : Carried.Statement (.frameCutShort port) := by
  intro r h
  exact absurd (show (none : Option Request) = some r from h) (by simp)

theorem Carried.firstOutField : Carried.Statement .firstOutField := by
  intro r h
  exact absurd (show (none : Option Request) = some r from h) (by simp)

theorem Carried.outFieldPassage (roller : Fin 4) : Carried.Statement (.outFieldPassage roller) := by
  intro r h
  exact absurd (show (none : Option Request) = some r from h) (by simp)

theorem Carried.inFieldPassage (roller : Fin 4) : Carried.Statement (.inFieldPassage roller) := by
  intro r h
  exact absurd (show (none : Option Request) = some r from h) (by simp)

theorem Carried.reportFieldArrival : Carried.Statement .reportFieldArrival := by
  intro r h
  exact absurd (show (none : Option Request) = some r from h) (by simp)

theorem Carried.serviceAreaReturn : Carried.Statement .serviceAreaReturn := by
  intro r h
  exact absurd (show (none : Option Request) = some r from h) (by simp)

theorem Carried.outboundCheckWord : Carried.Statement .outboundCheckWord := by
  intro r h
  exact absurd (show (none : Option Request) = some r from h) (by simp)

theorem Carried.serviceComplete (which : Nat) : Carried.Statement (.serviceComplete which) := by
  intro r h
  exact absurd (show (none : Option Request) = some r from h) (by simp)

theorem Carried.returnCheckWord (elapsed : Nat) (order : List (Fin 4)) : Carried.Statement (.returnCheckWord elapsed order) := by
  intro r h
  exact absurd (show (none : Option Request) = some r from h) (by simp)

theorem Carried.stageTimerExpiry (roller : Fin 4) : Carried.Statement (.stageTimerExpiry roller) := by
  intro r h
  exact absurd (show (none : Option Request) = some r from h) (by simp)

theorem Carried.loadBlendEnd (group : Fin 4) : Carried.Statement (.loadBlendEnd group) := by
  intro r h
  exact absurd (show (none : Option Request) = some r from h) (by simp)

theorem Carried.settleTimerExpiry (group : Fin 4) : Carried.Statement (.settleTimerExpiry group) := by
  intro r h
  exact absurd (show (none : Option Request) = some r from h) (by simp)

theorem Carried.trackBlendInEnd (group : Fin 4) : Carried.Statement (.trackBlendInEnd group) := by
  intro r h
  exact absurd (show (none : Option Request) = some r from h) (by simp)

theorem Carried.trackBlendOutEnd (group : Fin 4) : Carried.Statement (.trackBlendOutEnd group) := by
  intro r h
  exact absurd (show (none : Option Request) = some r from h) (by simp)

theorem Carried.traceRecordAppend : Carried.Statement .traceRecordAppend := by
  intro r h
  exact absurd (show (none : Option Request) = some r from h) (by simp)

theorem Carried.lineSilenceExpiry : Carried.Statement .lineSilenceExpiry := by
  intro r h
  exact absurd (show (none : Option Request) = some r from h) (by simp)

theorem Carried.certAssert : Carried.Statement .certAssert := by
  intro r h
  exact absurd (show (none : Option Request) = some r from h) (by simp)

theorem Carried.certRelease : Carried.Statement .certRelease := by
  intro r h
  exact absurd (show (none : Option Request) = some r from h) (by simp)

theorem Carried.saveComplete (verified : Bool) : Carried.Statement (.saveComplete verified) := by
  intro r h
  exact absurd (show (none : Option Request) = some r from h) (by simp)

theorem Carried.restartEffect : Carried.Statement .restartEffect := by
  intro r h
  exact absurd (show (none : Option Request) = some r from h) (by simp)

theorem Carried.identify : Carried.Statement .identify := by
  intro r h _
  obtain rfl := Option.some.inj h
  exact ⟨rfl, rfl⟩

theorem Carried.readStatus : Carried.Statement .readStatus := by
  intro r h _
  obtain rfl := Option.some.inj h
  exact ⟨rfl, rfl⟩

theorem Carried.clearFlags (mask : BitVec 64) : Carried.Statement (.clearFlags mask) := by
  intro r h _
  obtain rfl := Option.some.inj h
  have e := fromLE_leBytes 8 mask.toNat (by simpa using mask.isLt)
  simp [requestOf, requestLen, kindOf, payloadOf, sliceAt, e]

theorem Carried.start : Carried.Statement .start := by
  intro r h _
  obtain rfl := Option.some.inj h
  exact ⟨rfl, rfl⟩

theorem Carried.halt : Carried.Statement .halt := by
  intro r h _
  obtain rfl := Option.some.inj h
  exact ⟨rfl, rfl⟩

theorem Carried.groupEngage (group : Byte) : Carried.Statement (.groupEngage group) := by
  intro r h _
  obtain rfl := Option.some.inj h
  exact ⟨rfl, rfl⟩

theorem Carried.groupRun (group : Byte) : Carried.Statement (.groupRun group) := by
  intro r h _
  obtain rfl := Option.some.inj h
  exact ⟨rfl, rfl⟩

theorem Carried.groupTrack (group : Byte) : Carried.Statement (.groupTrack group) := by
  intro r h _
  obtain rfl := Option.some.inj h
  exact ⟨rfl, rfl⟩

theorem Carried.groupUntrack (group : Byte) : Carried.Statement (.groupUntrack group) := by
  intro r h _
  obtain rfl := Option.some.inj h
  exact ⟨rfl, rfl⟩

theorem Carried.groupStop (group : Byte) : Carried.Statement (.groupStop group) := by
  intro r h _
  obtain rfl := Option.some.inj h
  exact ⟨rfl, rfl⟩

theorem Carried.groupDisengage (group : Byte) : Carried.Statement (.groupDisengage group) := by
  intro r h _
  obtain rfl := Option.some.inj h
  exact ⟨rfl, rfl⟩

theorem Carried.groupClear (group : Byte) : Carried.Statement (.groupClear group) := by
  intro r h _
  obtain rfl := Option.some.inj h
  exact ⟨rfl, rfl⟩

theorem Carried.readEntry (table index copy : Byte) : Carried.Statement (.readEntry table index copy) := by
  intro r h _
  obtain rfl := Option.some.inj h
  exact ⟨rfl, rfl⟩

theorem Carried.writeEntry (table index : Byte) (entry : List Byte) : Carried.Statement (.writeEntry table index entry) := by
  intro r h hf
  obtain rfl := Option.some.inj h
  obtain ⟨tb, h1, h2⟩ := hf
  constructor
  · simp [requestOf, kindOf, payloadOf, payloadByte, h1, sliceAt, ← h2]
  · simp [requestLen, kindOf, payloadOf, payloadByte, h1, h2]
    omega

theorem Carried.setLiveOn (table : Byte) : Carried.Statement (.setLiveOn table) := by
  intro r h _
  obtain rfl := Option.some.inj h
  exact ⟨rfl, rfl⟩

theorem Carried.setLiveOff (table : Byte) : Carried.Statement (.setLiveOff table) := by
  intro r h _
  obtain rfl := Option.some.inj h
  exact ⟨rfl, rfl⟩

theorem Carried.commit (mask presence : Byte) (effective : BitVec 64) (blend : BitVec 16) : Carried.Statement (.commit mask presence effective blend) := by
  intro r h _
  obtain rfl := Option.some.inj h
  have e := fromLE_leBytes 8 effective.toNat (by simpa using effective.isLt)
  have b := fromLE_leBytes 2 blend.toNat (by simpa using blend.isLt)
  have l : (leBytes 8 effective.toNat).length = 8 := by simp
  simp [requestOf, requestLen, kindOf, payloadOf, payloadByte, sliceAt, List.drop_append, e, b]

theorem Carried.cancel (mask : Byte) : Carried.Statement (.cancel mask) := by
  intro r h _
  obtain rfl := Option.some.inj h
  exact ⟨rfl, rfl⟩

theorem Carried.lock (mask : Byte) : Carried.Statement (.lock mask) := by
  intro r h _
  obtain rfl := Option.some.inj h
  exact ⟨rfl, rfl⟩

theorem Carried.unlock (mask : Byte) : Carried.Statement (.unlock mask) := by
  intro r h _
  obtain rfl := Option.some.inj h
  exact ⟨rfl, rfl⟩

theorem Carried.lockDown (mask : Byte) : Carried.Statement (.lockDown mask) := by
  intro r h _
  obtain rfl := Option.some.inj h
  exact ⟨rfl, rfl⟩

theorem Carried.freeze : Carried.Statement .freeze := by
  intro r h _
  obtain rfl := Option.some.inj h
  exact ⟨rfl, rfl⟩

theorem Carried.thaw : Carried.Statement .thaw := by
  intro r h _
  obtain rfl := Option.some.inj h
  exact ⟨rfl, rfl⟩

theorem Carried.traceSet (group decimation enable : Byte) : Carried.Statement (.traceSet group decimation enable) := by
  intro r h _
  obtain rfl := Option.some.inj h
  exact ⟨rfl, rfl⟩

theorem Carried.readTrace : Carried.Statement .readTrace := by
  intro r h _
  obtain rfl := Option.some.inj h
  exact ⟨rfl, rfl⟩

theorem Carried.storeSave : Carried.Statement .storeSave := by
  intro r h _
  obtain rfl := Option.some.inj h
  exact ⟨rfl, rfl⟩

theorem Carried.restart : Carried.Statement .restart := by
  intro r h _
  obtain rfl := Option.some.inj h
  exact ⟨rfl, rfl⟩

theorem Carried.powerDown : Carried.Statement .powerDown := by
  intro r h
  exact absurd (show (none : Option Request) = some r from h) (by simp)

end Sys2Proof.Laws
end

