-- ==== Sys2Proof/Laws/Service.lean ====
section
/-! SUPPORT. What the requests and the reply queue can touch. -/

namespace Sys2Proof.Machine

/-- The outbound pass is the same but for the station its target byte meets (10 R162). -/
def SameButStation (p q : Option Pass) : Prop := q = p ∨ ∃ n, q = p.map (Pass.meetStation n)

theorem SameButStation.refl (p : Option Pass) : SameButStation p p := .inl rfl

/-- What an application of CELL does to a frame in passage: nothing but to its station, and to that only where its target byte is still to
pass (10 R162). -/
theorem Pass.meetStation_spec (n : Nat) (p : Pass) :
    p.meetStation n = { p with station := if p.ahead = 0 then p.station else n, ahead := p.ahead - 1 } := by
  unfold Pass.meetStation
  split
  · rename_i h
    cases p
    simp_all
  · rfl


/-- What a request's owner leaves alone: supply, pins, frames sent, the outbound pass but for its station, the reply queue and the queue of
commands. -/
structure OwnKept (s t : State) : Prop where
  powered : t.powered = s.powered
  resetLine : t.resetLine = s.resetLine
  cert : t.cert = s.cert
  outPass : SameButStation s.outPass t.outPass
  sentD : t.sentD = s.sentD
  sentM : t.sentM = s.sentM
  queue : t.svc.queue = s.svc.queue
  orphans : t.svc.orphans = s.svc.orphans
  nextId : t.svc.nextId = s.svc.nextId
  pending : t.pending = s.pending

theorem OwnKept.refl (s : State) : OwnKept s s := ⟨rfl, rfl, rfl, .refl _, rfl, rfl, rfl, rfl, rfl, rfl⟩

theorem OnlyApplied.own {s t : State} (h : OnlyApplied s t) : OwnKept s t := by
  unfold OnlyApplied at h
  rw [h]
  exact ⟨rfl, rfl, rfl, .refl _, rfl, rfl, rfl, rfl, rfl, rfl⟩

theorem OnlyMotion.own {s t : State} (h : OnlyMotion s t) : OwnKept s t := by
  unfold OnlyMotion at h
  rw [h]
  exact ⟨rfl, rfl, rfl, .refl _, rfl, rfl, rfl, rfl, rfl, rfl⟩

theorem haltRun_own (s : State) : OwnKept s (haltRun s) := by
  have k := (haltAllLiveDue_onlyApplied (runEnds s)).own
  exact ⟨k.powered, k.resetLine, k.cert, k.outPass, k.sentD, k.sentM, k.queue, k.orphans, k.nextId, k.pending⟩

theorem actEngage_only (g : Fin 4) (s : State) : OnlyMotion s (actEngage g s).2 := by
  unfold actEngage
  repeat' split
  all_goals rfl

theorem actRun_only (g : Fin 4) (s : State) : OnlyMotion s (actRun g s).2 := by
  unfold actRun
  split <;> rfl

theorem actTrack_only (g : Fin 4) (s : State) : OnlyMotion s (actTrack g s).2 := by
  unfold actTrack
  repeat' split
  all_goals rfl

theorem actUntrack_only (g : Fin 4) (s : State) : OnlyMotion s (actUntrack g s).2 := by
  unfold actUntrack
  repeat' split
  all_goals rfl

theorem actStop_only (g : Fin 4) (s : State) : OnlyMotion s (actStop g s).2 := by
  unfold actStop
  split <;> rfl

theorem actDisengage_only (g : Fin 4) (s : State) : OnlyMotion s (actDisengage g s).2 := by
  unfold actDisengage
  split <;> rfl

theorem actClear_only (g : Fin 4) (s : State) : OnlyMotion s (actClear g s).2 := by
  unfold actClear
  repeat' split
  all_goals rfl

/-- A GROUP action acts on rollers and groups alone (07 R115). -/
theorem groupAction_only {a : Nat} {f : Fin 4 → State → Acted} (h : groupAction a = some f) (g : Fin 4) (s : State) :
    OnlyMotion s (f g s).2 := by
  unfold groupAction at h
  split at h <;> first | (obtain rfl := Option.some.inj h) | cases h
  exacts [actEngage_only g s, actRun_only g s, actTrack_only g s, actUntrack_only g s, actStop_only g s, actDisengage_only g s,
    actClear_only g s]

theorem ownGroup_only (g a : Byte) (s : State) : OnlyMotion s (ownGroup g a s).2 := by
  unfold ownGroup
  split
  · rfl
  · split
    · rfl
    · rename_i act ha
      repeat' split
      all_goals first | rfl | exact groupAction_only ha _ s

theorem ownWriteEntry_only (t i : Byte) (bs : List Byte) (s : State) : OnlyApplied s (ownWriteEntry t i bs s).2 := by
  unfold ownWriteEntry
  repeat' split
  all_goals first | rfl | skip
  unfold writeAt
  repeat' split
  all_goals first | rfl | skip
  unfold writePassed
  simp only
  repeat' split
  all_goals rfl

theorem ownSetLive_only (t v : Byte) (s : State) : OnlyApplied s (ownSetLive t v s).2 := by
  unfold ownSetLive
  simp only
  repeat' split
  all_goals rfl

/-- A commit notes the station it leaves for the outbound frame in passage, where it names CELL (10 R162). -/
theorem noteStation_spec (mask : Byte) (s : State) :
    noteStation mask s = { s with outPass := (noteStation mask s).outPass } ∧ SameButStation s.outPass (noteStation mask s).outPass := by
  unfold noteStation
  split
  · exact ⟨rfl, .inr ⟨_, rfl⟩⟩
  · exact ⟨rfl, .refl _⟩

theorem noteStation_own (mask : Byte) (s : State) : OwnKept s (noteStation mask s) := by
  obtain ⟨h, k⟩ := noteStation_spec mask s
  rw [h]
  exact ⟨rfl, rfl, rfl, k, rfl, rfl, rfl, rfl, rfl, rfl⟩

/-- A COMMIT acts on the tables and by its application, and notes the station for the outbound frame in passage (08 R143). -/
theorem ownCommit_own (mask presence : Byte) (effective : BitVec 64) (blend : BitVec 16) (s : State) :
    OwnKept s (ownCommit mask presence effective blend s).2 := by
  unfold ownCommit commitActive commitBypass acceptCommit
  simp only
  repeat' split
  all_goals first | exact .refl s | exact ⟨rfl, rfl, rfl, .refl _, rfl, rfl, rfl, rfl, rfl, rfl⟩ | skip
  all_goals exact ⟨(noteStation_own _ _).powered, (noteStation_own _ _).resetLine, (noteStation_own _ _).cert, (noteStation_own _ _).outPass,
    (noteStation_own _ _).sentD, (noteStation_own _ _).sentM, (noteStation_own _ _).queue, (noteStation_own _ _).orphans,
    (noteStation_own _ _).nextId, (noteStation_own _ _).pending⟩

theorem ownCancel_only (mask : Byte) (s : State) : OnlyApplied s (ownCancel mask s).2 := by
  unfold ownCancel
  simp only
  split <;> rfl

theorem ownLock_only (mask mode : Byte) (s : State) : OnlyApplied s (ownLock mask mode s).2 := by
  unfold ownLock
  repeat' split
  all_goals rfl

theorem ownFreeze_only (s : State) : OnlyApplied s (ownFreeze s).2 := by
  unfold ownFreeze withFreezeEntry freezeEntry
  simp only [freezeReply]
  split <;> rfl

theorem ownThaw_only (s : State) : OnlyApplied s (ownThaw s).2 := by
  unfold ownThaw
  split <;> rfl

theorem ownTraceSet_only (g d en : Byte) (s : State) : (ownTraceSet g d en s).2 = { s with trace := (ownTraceSet g d en s).2.trace } := by
  unfold ownTraceSet
  simp only
  repeat' split
  all_goals rfl

theorem ownReadTrace_only (s : State) : (ownReadTrace s).2 = { s with trace := (ownReadTrace s).2.trace } := by
  unfold ownReadTrace
  split <;> rfl

theorem ownStoreSave_only (s : State) : (ownStoreSave s).2 = { s with store := (ownStoreSave s).2.store } := by
  unfold ownStoreSave
  repeat' split
  all_goals rfl

theorem ownRestart_only (s : State) : (ownRestart s).2 = { s with store := (ownRestart s).2.store } := by
  unfold ownRestart
  repeat' split
  all_goals rfl

/-- What every request's owner leaves alone (10 R163). -/
theorem own_kept (r : Request) (s : State) : OwnKept s (own r s).2 := by
  cases r with
  | identify => exact OwnKept.refl s
  | readStatus => exact OwnKept.refl s
  | clearFlags m => exact ⟨rfl, rfl, rfl, .refl _, rfl, rfl, rfl, rfl, rfl, rfl⟩
  | start =>
    show OwnKept s (ownStart s).2
    unfold ownStart
    repeat' split
    all_goals exact ⟨rfl, rfl, rfl, .refl _, rfl, rfl, rfl, rfl, rfl, rfl⟩
  | halt =>
    show OwnKept s (ownHalt s).2
    unfold ownHalt
    repeat' split
    all_goals first | exact haltRun_own s | exact OwnKept.refl s
  | group g a => exact (ownGroup_only g a s).own
  | readEntry t i c =>
    show OwnKept s (ownReadEntry t i c s).2
    unfold ownReadEntry
    simp only
    repeat' split
    all_goals exact OwnKept.refl s
  | writeEntry t i e => exact (ownWriteEntry_only t i e s).own
  | setLive t v => exact (ownSetLive_only t v s).own
  | commit m p e b => exact ownCommit_own m p e b s
  | cancel m => exact (ownCancel_only m s).own
  | lock m md => exact (ownLock_only m md s).own
  | freeze => exact (ownFreeze_only s).own
  | thaw => exact (ownThaw_only s).own
  | traceSet g d e =>
    show OwnKept s (ownTraceSet g d e s).2
    rw [ownTraceSet_only]
    exact ⟨rfl, rfl, rfl, .refl _, rfl, rfl, rfl, rfl, rfl, rfl⟩
  | readTrace =>
    show OwnKept s (ownReadTrace s).2
    rw [ownReadTrace_only]
    exact ⟨rfl, rfl, rfl, .refl _, rfl, rfl, rfl, rfl, rfl, rfl⟩
  | storeSave =>
    show OwnKept s (ownStoreSave s).2
    rw [ownStoreSave_only]
    exact ⟨rfl, rfl, rfl, .refl _, rfl, rfl, rfl, rfl, rfl, rfl⟩
  | restart =>
    show OwnKept s (ownRestart s).2
    rw [ownRestart_only]
    exact ⟨rfl, rfl, rfl, .refl _, rfl, rfl, rfl, rfl, rfl, rfl⟩

/-- Serving keeps a request's frame and its reply (log 24). -/
theorem serveNow_spec (r : Request) (s : State) :
    (serveNow r s).1 = (own r s).1
      ∧ (serveNow r s).2 = { (own r s).2 with svc := { (own r s).2.svc with lastReply := some (own r s).1 } } := ⟨rfl, rfl⟩

/-- An answer leaves the reply queue as long as it was. -/
@[simp] theorem onEntry_queue_length (s : State) (id : Nat) (f : ReplyEntry → ReplyEntry) :
    (s.onEntry id f).svc.queue.length = s.svc.queue.length := by simp [State.onEntry]

theorem linkRestart_only (e : ReplyEntry) (rep : Reply) (s : State) :
    linkRestart e rep s = { s with store := { s.store with restart := (linkRestart e rep s).store.restart } } := by
  unfold linkRestart
  split <;> rfl

/-- What an accepted RESTART notes: its own entry and the time since its request was taken (12 R184); any other reply changes nothing. -/
theorem linkRestart_cases (e : ReplyEntry) (rep : Reply) (s : State) :
    linkRestart e rep s = s
      ∨ linkRestart e rep s = { s with store := { s.store with
          restart := s.store.restart.map fun _ => { waited := e.age, entry := some e.id } } } := by
  unfold linkRestart
  split
  · exact .inr rfl
  · exact .inl rfl

@[simp] theorem ageEntries_nextId (dt : Nat) (x : Responder) : (ageEntries dt x).nextId = x.nextId := rfl
@[simp] theorem ageEntries_unanswered (dt : Nat) (x : Responder) : (ageEntries dt x).unanswered = x.unanswered := rfl
@[simp] theorem ageEntries_lastReply (dt : Nat) (x : Responder) : (ageEntries dt x).lastReply = x.lastReply := rfl
@[simp] theorem ageEntries_queue_length (dt : Nat) (x : Responder) : (ageEntries dt x).queue.length = x.queue.length := by
  simp [ageEntries]

/-- What time that passes touches while no timer ends: the line timers, the wait of a RESTART and the ages of the entries (log 7). -/
theorem advanceTimers_spec (dt : Nat) (s : State) :
    advanceTimers dt s = { s with
      lpu := { s.lpu with silenceTimer := s.lpu.silenceTimer.map (· + dt), arrivalTimer := s.lpu.arrivalTimer.map (· + dt) }
      store := { s.store with restart := s.store.restart.map fun w => { w with waited := w.waited + dt } }
      svc := ageEntries dt s.svc } := rfl

/-- A result recorded as unanswered touches LATE_REPLY and the unanswered record alone (10 R166). -/
theorem recordUnanswered_spec (e : ReplyEntry) (c : ResultCode) (s : State) :
    recordUnanswered e c s
      = { s with lpu := { s.lpu with flags := { s.lpu.flags with lateReply := true } }
                 svc := { s.svc with unanswered := some { kind := e.kind, cycle := e.cycle, code := c } } } := rfl

/-- A full queue gives up its oldest entry, so a new one finds at most 3 (10 R164). -/
theorem makeRoom_length (s : State) (h : s.svc.queue.length ≤ 4) : (makeRoom s).svc.queue.length ≤ 3 := by
  unfold makeRoom
  split
  · split
    · rename_i e rest he
      have hl : rest.length ≤ 3 := by
        rw [he] at h
        simp only [List.length_cons] at h
        omega
      have hf : (s.svc.queue.filter fun x => decide (x.id ≠ e.id)).length ≤ rest.length := by
        rw [he]
        simpa using List.length_filter_le (fun x : ReplyEntry => !decide (x.id = e.id)) rest
      unfold dropEntry
      split
      · exact le_trans hf hl
      · exact le_trans hf hl
    · rename_i hn
      simp [hn]
  · rename_i hn
    simp only [Config.queueMax] at hn
    omega

/-- The three ways a frame leaves (01 R3, R4): whole, cut where it ended early, or cut at its declared end; a cut one with the check word of a
bad check as far as it leaves. -/
theorem sentFrame_cases (p : Pass) :
    (p.rx.length = declaredLen p.rx ∧ sentFrame p = { bytes := forwarded (checkGood p.rx) p, aborted := false })
      ∨ (p.rx.length < declaredLen p.rx ∧ sentFrame p = { bytes := (forwarded false p).take p.tx.length, aborted := true })
      ∨ (declaredLen p.rx < p.rx.length ∧ sentFrame p = { bytes := forwarded false p, aborted := true }) := by
  unfold sentFrame Pass.whole
  simp only [decide_eq_true_eq]
  split
  · exact .inl ⟨‹_›, rfl⟩
  · split
    · exact .inr (.inl ⟨‹_›, rfl⟩)
    · exact .inr (.inr ⟨by omega, rfl⟩)

/-- What RESET does with a frame that is leaving (01 R9): it stays whole where all its bytes had been sent, and is cut and aborted
otherwise. -/
theorem SentFrame.abortAt_cases (n : Nat) (f : SentFrame) :
    (f.bytes.length ≤ n ∧ f.abortAt n = f) ∨ (n < f.bytes.length ∧ f.abortAt n = { bytes := f.bytes.take n, aborted := true }) := by
  unfold SentFrame.abortAt
  split
  · exact .inr ⟨‹_›, rfl⟩
  · exact .inl ⟨by omega, rfl⟩

end Sys2Proof.Machine
end

