-- ==== Sys2Proof/Tests/Slice0.lean ====
section
/-! SUPPORT. Tests of the model: the ill-formed commands, the figures of the spec's worked cases, and, per statement of
Certificates/Slice0/Obligations.lean that has hypotheses, a concrete state and operands that meet them. -/

namespace Sys2Proof.Tests

open Sys2Proof.Machine

/-! ## WellFormed smoke: each check refuses an ill-formed term -/

theorem test_wf_header_needs_five_bytes : Instr.wellFormed (.passHeader .m ⟨[0x21, 0, 0, 16], 0⟩) = false := by decide
theorem test_wf_header_of_five_bytes : Instr.wellFormed (.passHeader .m ⟨[0x21, 0, 0, 16, 0], 0⟩) = true := by decide
theorem test_wf_entry_fits_payload : Instr.wellFormed (.writeEntry 2 0 (List.replicate 63 0)) = false := by decide
theorem test_wf_order_names_a_roller_once : Instr.wellFormed (.returnCheckWord 0 [1, 2, 1]) = false := by decide

/-- No row of the table has bits (log 34). -/
theorem test_no_word_spells_a_command : decodeTableWord 8 0x21 = none := rfl

/-! ## Helper states -/

/-- A ROLLERS entry in the spirit of 03, Worked case: one measurement. -/
def rollerCfg (g : Option Nat) : RollersEntry :=
  { scale := 239239168, direction := 1, window := 4, jumpLimit := 8000, forceLimit := 5000, sampleMissLimit := 2, vmax := 70000,
    aMax := 3000, dStop := 6000, stageTimeout := 50, group := g, trim := 0 }

/-- Tables that the start check passes: rollers 0 and 1 in group 0. -/
def cfg : Tables :=
  { cell := { station := 5, cycleUs := 1000, toleranceUs := 50, missLimit := 2, standstill := 30, slotAreaLen := 64, report := some 32 }
    slots := ⟨.present 0 6, .present 16 22, .absent, .absent⟩
    rollers := ⟨rollerCfg (some 0), rollerCfg (some 0), rollerCfg none, rollerCfg none⟩
    groups := Quad.all { mass := 1700, loadSet := 0, kp := 2000, corrMax := 300, slipLimit := 20, trackBlend := 200 }
    loads := Octo.all { a := 1500, b := 5000, c := 4500, vCreep := 500 } }

/-- A part in BYPASS with these tables. -/
def inBypass : State :=
  { State.reset with
    lpu := { State.reset.lpu with opState := .bypass }
    tables := { State.reset.tables with staging := cfg, active := cfg } }

/-- A drive that reports READY. -/
def readyStatus : Status := ⟨true, false, false, false⟩

/-- A roller in a stage, its last status READY. -/
def rollerIn (st : Stage) : Roller :=
  { Roller.initial RollerFlags.none with
    chan := { Channel.initial RollerFlags.none with lastStatus := some readyStatus, baseline := some 0, lastStamp := some 0 }
    seq := { Sequence.safe with stage := st }, published := st }

/-- A group in a state. -/
def groupIn (st : GroupState) : Group := { Group.initial GroupFlags.none with state := st }

/-- A run at E = 5, group 0 and its members as given. -/
def inRunWith (gs : GroupState) (st : Stage) : State :=
  { inBypass with
    lpu := { inBypass.lpu with opState := .active, ext := some 5, last := some 5, silenceTimer := some 0, arrivalTimer := some 0 }
    slot := { SlotEngine.initial with
      positions := some { slots := cfg.slots, report := cfg.cell.report }
      image := some (imageOf 5 inBypass) }
    rollers := ⟨rollerIn st, rollerIn st, rollerIn .safe, rollerIn .safe⟩
    groups := ⟨groupIn gs, groupIn .idle, groupIn .idle, groupIn .idle⟩ }

/-- A cycle frame without its check word: header with a slot area of 64 bytes, and a service area to a station. -/
def frameBody (cycle : Nat) (station kind len : Byte) : List Byte :=
  [0x21] ++ leBytes 2 cycle ++ leBytes 2 64 ++ List.replicate 64 0 ++ [station, kind, len, 0, 0, 0] ++ List.replicate 64 0

/-- The frame with a good check word. -/
def goodFrame (cycle : Nat) (station kind len : Byte) : List Byte :=
  frameBody cycle station kind len ++ checkBytes (crc32 (frameBody cycle station kind len))

/-- The frame with a bad check word. -/
def badFrame (cycle : Nat) : List Byte :=
  frameBody cycle 0 0 0 ++ checkBytes (~~~ crc32 (frameBody cycle 0 0 0))

/-- A pass of a frame. -/
def passOf (m : PassMode) (bytes : List Byte) : Pass :=
  { rx := bytes, tx := bytes, mode := m, short := false, written := false, cut := false, voided := false, station := 5, ahead := 0
    latched := none, matched := none }

/-- A reply-queue entry. -/
def replyEntry (id : Nat) (cycle : BitVec 16) (kind : Byte) (a r : Option Reply) : ReplyEntry :=
  { id := id, cycle := cycle, kind := kind, payload := List.replicate 64 0, answer := a, result := r, age := 0
    record := false }

/-- DONE without payload. -/
def doneReply : Reply := plainReply .done

/-- What stands after a header does not change the slot area length it declares. -/
theorem frameSlotLen_append (b x : List Byte) (h5 : 5 ≤ b.length) : frameSlotLen (b ++ x) = frameSlotLen b := by
  simp [frameSlotLen, sliceAt, List.drop_append, List.take_append]
  rw [show 3 - b.length = 0 by omega, show 2 - (b.length - 3) = 0 by omega]
  simp

/-- Bytes followed by a check word form a frame whose check is good exactly when the word is the check over them. -/
theorem checkGood_append (b : List Byte) (h : b.length = checkAt b) (h5 : 5 ≤ b.length) (c : BitVec 32) :
    checkGood (b ++ checkBytes c) = decide (checkBytes c = checkBytes (crc32 b)) := by
  have hf := frameSlotLen_append b (checkBytes c) h5
  have hc : checkAt (b ++ checkBytes c) = b.length := by simp [checkAt, hf] at *; omega
  simp only [checkGood, frameCheck, checkOver, hc, sliceAt, declaredLen, hf]
  simp [checkAt] at *
  rw [List.take_of_length_le (by simp)]
  simp; omega

/-- Such a frame has the length its header declares. -/
theorem whole_append (b : List Byte) (h : b.length = checkAt b) (h5 : 5 ≤ b.length) (c : BitVec 32) :
    (b ++ checkBytes c).length = declaredLen (b ++ checkBytes c) := by
  simp [declaredLen, frameSlotLen_append b _ h5, checkAt] at *; omega

theorem frameBody_whole (cycle : Nat) (st kind len : Byte) :
    5 ≤ (frameBody cycle st kind len).length ∧ (frameBody cycle st kind len).length = checkAt (frameBody cycle st kind len) := by
  constructor
  · simp [frameBody]
  · simp [frameBody, checkAt, frameSlotLen, sliceAt, leBytes, fromLE]

/-- The two frames the witnesses use, of cycle 6: one addressed to station 5 with an IDENTIFY, one with a bad check. -/
theorem witness_frames :
    checkGood (goodFrame 6 5 1 0) = true ∧ checkGood (badFrame 6) = false
      ∧ (goodFrame 6 5 1 0).length = declaredLen (goodFrame 6 5 1 0) ∧ (badFrame 6).length = declaredLen (badFrame 6)
      ∧ isCycleFrame (goodFrame 6 5 1 0) = true ∧ isCycleFrame (badFrame 6) = true ∧ frameCycle (goodFrame 6 5 1 0) = 6 := by
  refine ⟨?_, ?_, whole_append _ (frameBody_whole ..).2 (frameBody_whole ..).1 _, whole_append _ (frameBody_whole ..).2 (frameBody_whole ..).1 _,
    by decide +kernel, by decide +kernel, by decide +kernel⟩
  · rw [goodFrame, checkGood_append _ (frameBody_whole ..).2 (frameBody_whole ..).1]; simp
  · rw [badFrame, checkGood_append _ (frameBody_whole ..).2 (frameBody_whole ..).1, decide_eq_false_iff_not]
    exact fun h => not_compl_self _ (checkBytes_inj h)

/-! ## Figures of the spec -/

/-- The check of 00, Byte order on the line, is the common 32-bit check; its value over the nine digits is that check's published check value. -/
theorem test_crc_check_value : crc32 [0x31, 0x32, 0x33, 0x34, 0x35, 0x36, 0x37, 0x38, 0x39] = 0xCBF43926#32 := by
  simp [crc32, crcByte, crcBit]

/-- 04, Worked cases: road load. -/
theorem test_road_load :
    [20000, 20001, 500, 499, 200, -200, 1, 0].map (signedLoad { a := 1500, b := 5000, c := 4500, vCreep := 500 })
      = [4300, 4300, 1526, 1523, 610, -610, 3, 0] := by decide

/-- 04, Worked cases: load blends: n = 4 at j = 0, 1, 2, then n = 100 at j = 25. -/
theorem test_load_blend :
    let old : LoadsEntry := { a := 1500, b := 5000, c := 4500, vCreep := 500 }
    let new : LoadsEntry := { old with a := 1800 }
    [roadLoad new (some ⟨old, 0, 4⟩) 20000, roadLoad new (some ⟨old, 1, 4⟩) 20000, roadLoad new (some ⟨old, 2, 4⟩) 20000,
      roadLoad new none 20000, roadLoad new (some ⟨old, 25, 100⟩) 20000] = [4300, 4375, 4450, 4600, 4375] := by decide

/-- The end of that blend: the lost cycle takes j from 2 to 4, and the context goes. -/
theorem test_load_blend_end :
    let b : LoadBlend := ⟨{ a := 1500, b := 5000, c := 4500, vCreep := 500 }, 2, 4⟩
    advanceBlend 2 (some b) = none ∧ advanceBlend 1 (some b) = some { b with pos := 3 } := by decide

/-- 04, Worked cases: inertia, E = 500, 502, 503, 504 and the clamp. -/
theorem test_inertia :
    let g (v r : Int) : Group := { groupIn .follow with speed := v, residue := r }
    let out (x : Group) := (x.speed, x.residue, x.flags.simSat)
    out (integrate 1700 1 1000 1700 70000 (g 20000 15800000)) = (20001, 500000, false)
      ∧ out (integrate 1700 2 1000 1700 70000 (g 20001 500000)) = (20001, 3900000, false)
      ∧ out (integrate (-2300) 1 1000 1700 70000 (g 20001 1600000)) = (20000, 16300000, false)
      ∧ out (integrate 1700 1 1000 1700 20000 (g 20000 16900000)) = (20000, 0, true) := by decide

/-- 04, Worked case: stopping. -/
theorem test_stopping :
    towardZero 20001 (rateStep 6000 1 1000) = 19995 ∧ towardZero 19995 (rateStep 6000 2 1000) = 19983
      ∧ towardZero 3 (rateStep 6000 1 1000) = 0 ∧ rateStep 100 1 250 = 1 := by decide

/-- 03, Worked case: one measurement, forward and with direction −1. -/
theorem test_measurement :
    let ch : Channel := { Channel.initial RollerFlags.none with baseline := some 4294965000, lastStamp := some 0, fraction := 40000 }
    let one (d : Int) := (measure { rollerCfg none with direction := d, window := 1 } 1000 1 false ⟨readyStatus, 1, 3183, 0⟩ ch).chan
    ((one 1).distance, (one 1).fraction, (one 1).speed, (one 1).baseline) = (20001090, 7232, 20001, some 3183)
      ∧ ((one (-1)).distance, (one (-1)).fraction, (one (-1)).speed) = (-20001089, 7232, -20001) := by decide

/-- 03, Worked sequence: E = 105 (a span of 4 cycles, the force clamped) and E = 106 (a count jump). -/
theorem test_measurement_span_and_jump :
    let ch : Channel := { Channel.initial RollerFlags.none with
      baseline := some 1005480, lastStamp := some 11, held := 2, distance := 20004740, window := [⟨20004740, 1⟩], speed := 20005 }
    let a := measure (rollerCfg none) 1000 2 false ⟨readyStatus, 12, 1027400, 5600⟩ ch
    let b := measure (rollerCfg none) 1000 1 false ⟨readyStatus, 13, 1046400, 2100⟩ a.chan
    (a.chan.held, a.chan.distance, a.chan.speed, a.chan.force) = (0, 100023700, 20005, 5000)
      ∧ a.chan.window = [⟨20004740, 1⟩, ⟨80018960, 4⟩] ∧ (a.chan.flags.forceSat, a.fault) = (true, false)
      ∧ (b.chan.distance, b.chan.speed, b.chan.force) = (100023700, 20005, 2100) ∧ (b.chan.latch.countJump, b.fault) = (true, true) := by
  decide

/-- 03 R42: with sample_miss_limit 2 the third stale cycle raises SAMPLE_STALE. -/
theorem test_stale_limit :
    let ch : Channel := { Channel.initial RollerFlags.none with held := 1 }
    (staleSample 2 1 ch).2 = false ∧ (staleSample 2 1 (staleSample 2 1 ch).1).2 = true := by decide

/-- 05, Worked case: one composition. -/
theorem test_composition :
    let t : Tables := { cfg with groups := Quad.all { mass := 1700, loadSet := 0, kp := 2000, corrMax := 300, slipLimit := 20, trackBlend := 200 } }
    let x : Group := { groupIn .track with speed := 20001, blendPos := 50, dir := .inward }
    let r (p : Int) : Roller := { rollerIn .released with coup := { Coupling.initial with prevSet := p } }
    let c (p : Int) := composeMember t 0 1 1 x true (some 12500000) (r p)
    (c 19990).base = 20001 ∧ (c 19990).sum = 20007 ∧ (c 19990).setpoint = 19993 ∧ (c 20005).setpoint = 20007
      ∧ baseSpeed 20000 2500 = 20050 := by decide

/-- 05, Worked sequence: a track blend, E = 204, and its end at E = 208. -/
theorem test_track_blend :
    let x (b : Nat) (d : BlendDir) : Group := { groupIn .track with blendPos := b, dir := d }
    ((moveBlend 4 2 (x 2 .inward)).1.blendPos, (moveBlend 4 2 (x 2 .inward)).1.dir) = (4, .steady)
      ∧ moveBlend 4 2 (x 2 .outward) = (x 0 .outward, true) ∧ moveBlend 4 1 (x 4 .outward) = (x 3 .outward, false) := by decide

/-- 05, Worked sequence: HOLD after a stop. -/
theorem test_hold_after_stop : limitSetpoint 70000 3 2 0 = 0 ∧ limitSetpoint 70000 3 (-4) 0 = -1 ∧ limitSetpoint 70000 3 (-1) 0 = 0 := by
  decide

/-- 06, Worked sequence: one roller brought up, E = 401 to E = 405. -/
theorem test_bring_up :
    let en : Status := ⟨true, true, false, false⟩
    let r0 := enableDirection (rollerIn .safe)
    let r1 := (stageWork 50 30 1 (some readyStatus) r0).1
    let r2 := (stageWork 50 30 1 none r1).1
    let r3 := (stageWork 50 30 1 (some readyStatus) r2).1
    let r4 := (stageWork 50 30 1 (some readyStatus) r3).1
    let r5 := (stageWork 50 30 1 (some en) r4).1
    (r1.seq.readyCount, r2.seq.timer, r3.seq.commanded, r4.seq.stage, r4.seq.timer) = (1, some 2, true, .enabling, some 4)
      ∧ (r5.seq.stage, r5.seq.timer) = (.energised, some 0) := by decide

/-- 06, Worked sequence: disengage, E = 901 to E = 904. -/
theorem test_disengage :
    let enB : Status := ⟨true, true, true, false⟩
    let en : Status := ⟨true, true, false, false⟩
    let r0 := applyDirection 30 (rollerIn .released)
    let r1 := (stageWork 50 30 1 (some enB) r0).1
    let r2 := (stageWork 50 30 1 (some en) r1).1
    let r3 := (stageWork 50 30 1 (some en) r2).1
    let r4 := (stageWork 50 30 1 (some readyStatus) r3).1
    (r0.seq.stage, r1.seq.stage, r2.seq.stage, r4.seq.stage) = (.applying, .applying, .disabling, .safe)
      ∧ (r1.seq.timer, r3.seq.timer, r4.seq.timer) = (some 1, some 1, none) := by decide

/-- 06: a brake that does not close: the timer of APPLYING goes from 48 to 50 at k = 2 and expires. -/
theorem test_stage_timeout :
    let r : Roller := { rollerIn .applying with seq := { Sequence.safe with stage := .applying, timer := some 48 } }
    let w := stageWork 50 30 2 (some ⟨true, true, true, false⟩) r
    (w.1.seq.stage, w.1.chan.latch.seqTimeout, w.2) = (.safe, true, true) := by decide

/-- 01, Worked sequence: cycle 65,534 to cycle 0, then to cycle 3, then to cycle 40. -/
theorem test_classification :
    let run (e : Nat) (t : Nat) (m : Nat) : State := { inBypass with
      lpu := { inBypass.lpu with opState := .active, ext := some e, last := some (BitVec.ofNat 16 e), arrivalTimer := some t, missedCount := m } }
    let a := (classify [] 0 (run 65534 2020 0)).lpu
    let b := (classify [] 3 (run 65536 3070 1)).lpu
    let c := (classify [] 40 (run 65539 910 3)).lpu
    (a.ext, a.flags.missed, a.flags.offTime, a.missedCount) = (some 65536, true, false, 1)
      ∧ (b.ext, b.flags.offTime, b.missedCount) = (some 65539, true, 3) ∧ (c.ext, c.flags.resync) = (some 65576, true) := by
  decide +kernel

/-- 11, Worked sequence: the record of cycle 101 fills the buffer, the one of cycle 104 is dropped. -/
theorem test_trace_pointers :
    heldBetween ⟨4, true⟩ ⟨5, false⟩ = 511 ∧ TracePtr.next ⟨4, true⟩ = ⟨5, true⟩ ∧ heldBetween ⟨5, true⟩ ⟨5, false⟩ = 512
      ∧ TracePtr.next ⟨511, false⟩ = ⟨0, true⟩
      ∧ (appendRecord (traceRecordOf 104 inBypass) { TraceBuffer.initial 0 false with write := ⟨5, true⟩, read := ⟨5, false⟩ }).overflowCount
        = 1 := by decide

/-- 02, Worked sequence: a roller forced SAFE has its out-field cleared although the set still releases it. -/
theorem test_gate :
    let c : Command := ⟨true, true, 19993⟩
    gate { Sequence.safe with stage := .released } c = c ∧ gate Sequence.safe c = ⟨false, false, 0⟩
      ∧ gate { Sequence.safe with stage := .applying } c = ⟨true, false, 0⟩ := by decide

/-- 13 Section 13.5: the factory CELL entry in bytes. -/
theorem test_cell_bytes : cellBytes factoryCell = [240, 0xE8, 3, 50, 0, 2, 30, 0, 0, 0, 255, 255] := by decide

/-- 11 R174: with d = 10 and a counter of 3 the append row changes nothing. -/
theorem test_trace_row_below_count :
    let s := inRunWith .hold .released
    let s3 : State := { s with trace := { s.trace with enable := true, decimation := 10, counter := 3 } }
    traceDue s3 = none ∧ traceDue { s3 with trace := { s3.trace with counter := 9 } } = some 5 := by decide

/-- 08 R136, R141: at HALT a marked ROLLERS entry with group NONE for a PRESENT roller does not reach the active copy. -/
theorem test_halt_keeps_membership :
    let s := inRunWith .idle .safe
    let m : State := { s with tables := { s.tables with
      staging := s.tables.staging.putEntry (.rollers 0) (.rollers (rollerCfg none)), due := LiveDue.none.put (.rollers 0) true } }
    let t := haltRun m
    (t.tables.active.rollers.get 0).group = some 0 ∧ t.tables.flags.liveDropped = false ∧ t.tables.due.at (.rollers 0) = false := by
  decide +kernel

/-- 01 R3, R9: a followed frame that RESET cuts is the one the part would have sent, R3's check word included. -/
theorem test_reset_cuts_the_sent_frame (p : Pass) (h : p.followed = true) (n : Nat) :
    (assertReset n 0 { inBypass with outPass := some p }).sentD = some ((sentFrame p).abortAt n) := by
  simp [assertReset, leaving, h, inBypass, State.reset]

/-- 01 R9: RESET while the last bytes of a frame that has closed still leave. -/
theorem test_reset_after_check_word :
    let s : State := { inBypass with sentM := some ⟨[1, 2, 3, 4], false⟩ }
    (assertReset 0 3 s).sentM = some ⟨[1, 2, 3], true⟩ ∧ (assertReset 0 4 s).sentM = some ⟨[1, 2, 3, 4], false⟩ := by decide

/-- 12 R184: the 10 ms of a RESTART run from the moment its request was taken. -/
theorem test_restart_wait_counts_from_taking :
    let e := { replyEntry 7 6 18 none none with age := 9000 }
    let s : State := { inBypass with svc := { inBypass.svc with queue := [e] } }
    (serveRow .restart s).store.restart = some ⟨9000, some 7⟩ := by decide +kernel

/-- 10 R162: a COMMIT of CELL in BYPASS while a frame passes: the frame to the old station is the part's where its target byte passed before
the application, and is not where that byte passes after it. -/
theorem test_station_change_after_header :
    let s (n : Nat) : State := { inBypass with
      outPass := some (newPass inBypass ⟨frameBody 6 5 1 0, n⟩)
      tables := { inBypass.tables with staging := { cfg with cell := { cfg.cell with station := 6 } } } }
    let t (n : Nat) := (ownCommit 1 0 0 0 (s n)).2
    (t 0).tables.active.cell.station = 6 ∧ (t 0).outPass.map (·.addressed) = some true ∧ (t 1).outPass.map (·.addressed) = some false := by
  decide +kernel

/-- 01 R3, R4: a written frame whose link ends inside its check word leaves with the first bytes of the complement of the check. -/
theorem test_cut_inside_check_word (b c : List Byte) (hb : b.length = checkAt b) (h5 : 5 ≤ b.length) (hc : c.length = 2) :
    let p := { passOf .active (b ++ c) with written := true }
    sentFrame p = { bytes := b ++ (checkBytes (~~~ crc32 b)).take 2, aborted := true } := by
  have hf := frameSlotLen_append b c h5
  have ha : checkAt (b ++ c) = b.length := by simp [checkAt, hf] at *; omega
  have hd : declaredLen (b ++ c) = b.length + 4 := by simp [declaredLen, checkAt, hf] at *; omega
  simp [sentFrame, Pass.whole, passOf, hd, hc, forwarded, sentCheck, ha, checkOver, List.take_append]

/-! ## Witnesses: per statement, states and operands that meet its hypotheses, clause by clause -/

/-- Group 0 in HOLD with its members RELEASED. -/
def holding : State := inRunWith .hold .released

/-- The same run with a command waiting. -/
def waiting (c : Instr) : State := { holding with pending := [c] }

/-- A part held by the RESET line, with a command waiting. -/
def heldByReset : State := { State.reset with resetLine := true, pending := [.halt] }

/-- A save of the factory tables in progress. -/
def saving : State := { inBypass with store := { inBypass.store with state := .saving factoryTables } }

/-- A part under freeze. -/
def frozen : State := { inBypass with cert := true, tables := { inBypass.tables with freezeFlag := true } }

/-- A RESTART that awaits its effect, tied to an entry. -/
def restarting (id : Option Nat) : State := { inBypass with store := { inBypass.store with restart := some ⟨9999, id⟩ } }

/-- A return pass fixed in a mode. -/
def returning (m : PassMode) (bytes : List Byte) : State := { holding with retPass := some (passOf m bytes) }

/-- An outbound pass fixed in a mode. -/
def outgoing (m : PassMode) (bytes : List Byte) : State := { holding with outPass := some (passOf m bytes) }

/-- Some entries in the reply queue. -/
def queued (s : State) (q : List ReplyEntry) : State := { s with svc := { s.svc with queue := q, nextId := 9 } }

/-- The silence time of the run is 4,000 µs: one microsecond before it ends, and one before that. -/
theorem witness_StepRunsFrontCommand :
    State.reset.pending = [] ∧ State.reset.store.restart = none ∧ (restarting none).store.restart.map (fun w => w.waited) = some 9999
      ∧ (holding.pending = [] ∧ holding.lpu.opState = .active ∧ holding.lpu.ext ≠ none
          ∧ (holding.tables.active.cell.missLimit + 2) * holding.tables.active.cell.cycleUs = 3999 + 1
          ∧ ¬ (holding.tables.active.cell.missLimit + 2) * holding.tables.active.cell.cycleUs ≤ 3998 + 1) := by decide

theorem witness_ResetAssertGivesResetValues :
    let s := { returning .active [1, 2, 3] with outPass := some (passOf .active [1, 2, 3]) }
    s.powered = true ∧ s.resetLine = false ∧ (s.outPass.map fun p => decide (2 < p.tx.length)) = some true
      ∧ (s.retPass.map fun p => decide (0 < p.tx.length)) = some true ∧ holding.outPass = none ∧ holding.retPass = none
      ∧ (let u := { State.reset with powered := false }
         u.powered = false ∧ u.resetLine = false) ∧ heldByReset.resetLine = true := by decide

theorem heldByReset_held : ResetHeld heldByReset := by
  refine ⟨rfl, rfl, rfl, rfl, rfl, rfl, rfl, rfl, ?_, rfl, rfl, rfl, rfl, rfl, rfl, rfl, rfl, ?_, ?_⟩
  · intro t; cases t <;> exact ⟨rfl, rfl⟩
  · intro p h; cases h
  · intro p h; cases h

theorem witness_ResetLineHoldsUntilRelease : heldByReset.resetLine = true ∧ ResetHeld heldByReset ∧ ∃ t, step heldByReset = .next t :=
  ⟨rfl, heldByReset_held, _, rfl⟩

theorem witness_StoreLoadSetsBothCopies :
    let s := State.reset
    (s.powered = true ∧ s.resetLine = false ∧ s.lpu.opState = .starting ∧ (s.cert && s.tables.freezeFlag) = false ∧ s.store.image = none)
      ∧ (let f := { frozen with lpu := State.reset.lpu }
         f.powered = true ∧ f.resetLine = false ∧ f.lpu.opState = .starting ∧ (f.cert && f.tables.freezeFlag) = true)
      ∧ ∃ a b : StoreImage, crc32 a.contents = a.check ∧ crc32 b.contents ≠ b.check :=
  ⟨by decide, by decide, ⟨[], crc32 []⟩, ⟨[], ~~~ crc32 []⟩, rfl, fun h => not_compl_self _ h.symm⟩

theorem witness_StoreSavesSnapshot :
    takesRequests saving = true ∧ saving.store.state = .saving factoryTables
      ∧ takesRequests (restarting none) = true ∧ (restarting none).store.state = .idle ∧ (restarting none).store.restart ≠ none
      ∧ takesRequests inBypass = true ∧ inBypass.store.state = .idle ∧ inBypass.store.restart = none := by
  refine ⟨rfl, rfl, rfl, rfl, ?_, rfl, rfl, rfl⟩
  intro h; cases h

theorem factory_fits : tablesFit factoryTables := by
  refine ⟨?_, ?_, ?_, ?_, ?_⟩
  · simp [cellFits, factoryTables, factoryCell]
  · intro i; match i with | 0 | 1 | 2 | 3 => trivial
  · intro i; match i with | 0 | 1 | 2 | 3 => simp [rollersFits, factoryTables, factoryRollers, Quad.all, Quad.get]
  · intro i; match i with | 0 | 1 | 2 | 3 => simp [groupsFits, factoryTables, factoryGroups, Quad.all, Quad.get]
  · intro i; match i with
    | 0 | 1 | 2 | 3 | 4 | 5 | 6 | 7 => simp [loadsFits, factoryTables, factoryLoads, Octo.all, Octo.get]

theorem witness_SavedImageLoadsBack : saving.store.state = .saving factoryTables ∧ tablesFit factoryTables := ⟨rfl, factory_fits⟩

theorem witness_EntriesReadBackFromTheirBytes :
    entryCheck (.rollers (rollerCfg (some 3))) = true ∧ cellFits factoryCell ∧ slotsFits .absent ∧ rollersFits factoryRollers
      ∧ groupsFits factoryGroups ∧ loadsFits factoryLoads :=
  ⟨by decide, factory_fits.1, trivial, factory_fits.2.2.1 0, factory_fits.2.2.2.1 0, factory_fits.2.2.2.2 0⟩

theorem witness_RestartJudgedAndTakesEffect :
    (takesRequests frozen = true ∧ inFreeze frozen = true) ∧ (takesRequests holding = true ∧ inFreeze holding = false ∧ holding.lpu.opState = .active)
      ∧ (inFreeze saving = false ∧ saving.store.state = .saving factoryTables)
      ∧ ((restarting none).lpu.opState = .bypass ∧ (restarting none).store.restart = some ⟨9999, none⟩
          ∧ (restarting none).lpu.silenceTimer = none ∧ awaiting (restarting none) = [] ∧ 10000 ≤ 9999 + 1 ∧ 9998 + 1 < 10000)
      ∧ (let e := replyEntry 3 6 1 none none
         let s := queued (restarting none) [e]
         takesRequests s = true ∧ awaiting s = [] ++ e :: [] ∧ e.answer = none ∧ Asks .identify e ∧ ∃ u, exec .identify s = .next u)
      ∧ (holding.lpu.opState = .active ∧ holding.lpu.silenceTimer = some 0 ∧ 4000 - 0 ≤ 10000 - 6000 ∧ 10000 - 6001 < 4000 - 0)
      ∧ (inFreeze inBypass = false ∧ inBypass.lpu.opState = .bypass ∧ inBypass.store.restart = none)
      ∧ let e := replyEntry 7 6 18 none (some (plainReply .accepted))
        let s := queued { restarting (some 7) with retPass := some { passOf .bypass (frameBody 6 5 18 0) with matched := some 7 } } [e]
        (s.retPass.map fun p => (p.followed, p.cut, decide (serviceAt p.rx < p.rx.length), p.matched)) = some (true, false, true, some 7)
          ∧ s.svc.queue = [e] ∧ s.svc.orphans = [] ∧ s.store.restart = some ⟨9999, some 7⟩ := by
  refine ⟨by decide, by decide, ⟨rfl, rfl⟩, ⟨rfl, rfl, rfl, rfl, by decide, by decide⟩, ⟨rfl, rfl, rfl, ⟨rfl, trivial⟩, _, rfl⟩,
    ⟨rfl, rfl, by decide, by decide⟩, by decide, ?_, rfl, rfl, rfl⟩
  decide +kernel

theorem witness_FreezeComesAndGoes :
    (takesRequests frozen = true ∧ frozen.cert = true ∧ frozen.tables.freezeFlag = true)
      ∧ (let s := { frozen with cert := false }
         s.lpu.opState ≠ .starting ∧ s.cert = false ∧ s.tables.freezeFlag = true ∧ takesRequests s = true)
      ∧ (inBypass.tables.freezeFlag = false ∧ inBypass.cert = false)
      ∧ (let s := { inBypass with cert := true }
         takesRequests s = true ∧ s.cert = true ∧ s.tables.freezeFlag = false)
      ∧ (let s := { frozen with lpu := State.reset.lpu }
         s.powered = true ∧ s.resetLine = false ∧ s.lpu.opState = .starting ∧ s.cert = true ∧ s.tables.freezeFlag = true) := by decide

theorem frozen_ok : FreezeOk frozen := fun _ => ⟨rfl, rfl, fun t => by cases t <;> rfl⟩

theorem witness_FreezeHoldsActiveCopies :
    FreezeOk { frozen with pending := [.start] } ∧ inFreeze { frozen with pending := [.start] } = true
      ∧ ({ frozen with pending := [.start] } : State).pending.head? ≠ some .powerUp
      ∧ ({ frozen with pending := [.start] } : State).pending.head? ≠ some .powerDown ∧ ∃ t, step { frozen with pending := [.start] } = .next t :=
  ⟨frozen_ok, by decide, by decide, by decide, _, rfl⟩

theorem witness_HeaderFixesPass :
    let b := frameBody 6 5 1 0
    (holding.powered = true ∧ holding.resetLine = false ∧ holding.lpu.opState ≠ .starting ∧ restartDue holding = false)
      ∧ isCycleFrame b = true ∧ isCycleFrame [0x21, 6, 0, 15, 0] = false ∧ isCycleFrame [0x21, 6, 0, 16, 0] = true
      ∧ heldByReset.resetLine = true ∧ State.reset.lpu.opState = .starting
      ∧ (replyEntry 7 6 1 none none).cycle = frameCycle b ∧ (replyEntry 7 5 1 none none).cycle ≠ frameCycle b := by
  decide +kernel

theorem witness_QueueGivesUpOldest :
    let e (id : Nat) (c : BitVec 16) := replyEntry id c 1 none (some doneReply)
    QueueOk (waiting .identify) ∧ (∃ t, step (waiting .identify) = .next t)
      ∧ (let s := queued (outgoing .active (goodFrame 6 5 1 0)) [e 1 1, e 2 2, e 3 3, e 4 4]
         (s.outPass.map fun p => (p.followed, p.cut)) = some (true, false) ∧ (goodFrame 6 5 1 0).length = declaredLen (goodFrame 6 5 1 0)
           ∧ s.store.restart = none ∧ checkGood (goodFrame 6 5 1 0) = true
           ∧ (serviceByte (goodFrame 6 5 1 0) 0).toNat = (passOf .active (goodFrame 6 5 1 0)).station
           ∧ (e 1 1).result = some doneReply ∧ (replyEntry 1 1 1 none none).result = none ∧ ∀ x ∈ [e 2 2, e 3 3, e 4 4], x.id ≠ (e 1 1).id)
      ∧ (holding.powered = true ∧ holding.resetLine = false ∧ holding.lpu.opState ≠ .starting ∧ holding.store.restart = none
          ∧ (e 1 5).cycle ≠ frameCycle (frameBody 6 5 1 0) ∧ (e 2 6).cycle = frameCycle (frameBody 6 5 1 0)
          ∧ ∀ x ∈ [e 2 6], x.id ≠ (e 1 5).id) := by
  refine ⟨by show _ ≤ _; decide, ⟨_, rfl⟩, ⟨by decide +kernel, witness_frames.2.2.1, rfl, witness_frames.1, by decide +kernel, rfl, rfl,
    by decide⟩, by decide +kernel⟩

/-- A frame that ends after its header, and one that runs on past its declared end. -/
theorem witness_CutFramesCountAsBad :
    let short : List Byte := [0x21, 6, 0, 64, 0]
    let long : List Byte := short ++ List.replicate 139 0
    (passOf .active short).followed = true ∧ (passOf .active short).cut = false ∧ short.length < declaredLen short
      ∧ declaredLen long + 1 = long.length ∧ (passOf .active short).matched = none ∧ restartDue holding = false
      ∧ (let e := replyEntry 7 6 1 none none
         entryOfId 7 (queued holding [e]) = some e ∧ holding.store.restart = none) := by
  refine ⟨rfl, rfl, by decide +kernel, by decide +kernel, rfl, rfl, rfl, rfl⟩

theorem passOf_ok (m : PassMode) (b : List Byte) : PassOk (passOf m b) := ⟨rfl, rfl, fun _ => rfl⟩

theorem witness_CheckWordFollowsArrival :
    let p := passOf .active (goodFrame 6 5 1 0)
    let q := passOf .active (badFrame 6)
    (PassOk p ∧ isCycleFrame p.rx = true ∧ p.rx.length = declaredLen p.rx ∧ p.written = false ∧ checkGood p.rx = true)
      ∧ (PassOk q ∧ isCycleFrame q.rx = true ∧ q.rx.length = declaredLen q.rx ∧ checkGood q.rx = false)
      ∧ (PassOk { p with written := true } ∧ PassOk { q with written := true }) :=
  ⟨⟨passOf_ok .active (goodFrame 6 5 1 0), witness_frames.2.2.2.2.1, witness_frames.2.2.1, rfl, witness_frames.1⟩,
    ⟨passOf_ok .active (badFrame 6), witness_frames.2.2.2.2.2.1, witness_frames.2.2.2.1, witness_frames.2.1⟩,
    ⟨rfl, rfl, fun _ => rfl⟩, ⟨rfl, rfl, fun _ => rfl⟩⟩

theorem witness_PassesKeptByEveryStep : PassesOk (waiting .firstOutField) ∧ ∃ t, step (waiting .firstOutField) = .next t :=
  ⟨⟨fun p h => (by cases h), fun p h => (by cases h)⟩, _, rfl⟩

/-- The out-field of roller 0 at the first byte of the slot area, in a frame that reaches just that byte. -/
theorem witness_OutFieldsPassTheGate :
    let s := outgoing .active [0x21, 6, 0, 64, 0, 0]
    (s.outPass.map fun p => (decide (p.mode = .active ∧ p.short = false ∧ p.cut = false), decide (5 + 0 < p.rx.length),
        decide (p.rx.length ≤ 5 + 16), decide (p.tx.length = p.rx.length))) = some (true, true, true, true)
      ∧ (s.slot.positions.map fun m => m.slots) = some ⟨.present 0 6, .present 16 22, .absent, .absent⟩
      ∧ (passOf .bypass []).mode ≠ .active ∧ ({ passOf .active [] with short := true } : Pass).short ≠ false
      ∧ ({ passOf .active [] with cut := true } : Pass).cut ≠ false ∧ holding.outPass = none ∧ inBypass.slot.positions = none
      ∧ (gate { Sequence.safe with stage := .releasing } ⟨true, true, 5⟩).release = true := by decide

theorem witness_ReturnFieldsExchanged :
    let s := returning .active (List.replicate 21 0)
    let r := returning .active (List.replicate 38 0)
    (s.retPass.map fun p => (decide (p.mode = .active ∧ p.short = false ∧ p.cut = false), decide (5 + 6 + 10 = p.rx.length),
        decide (p.rx.length < 5 + 22 + 10), decide (p.rx.length ≤ 5 + 32))) = some (true, true, true, true)
      ∧ (s.slot.positions.map fun m => (m.slots, m.report)) = some (⟨.present 0 6, .present 16 22, .absent, .absent⟩, some 32)
      ∧ (r.retPass.map fun p => (decide (5 + 32 < p.rx.length), decide (p.tx.length = p.rx.length))) = some (true, true)
      ∧ holding.retPass = none ∧ inBypass.slot.positions = none ∧ inBypass.slot.image = none ∧ r.slot.image = some (imageOf 5 inBypass) := by
  refine ⟨by decide, by decide, by decide, rfl, rfl, rfl, rfl⟩

theorem witness_ReplyWrittenIntoItsFrame :
    let e (r : Option Reply) := replyEntry 7 6 1 none r
    let s (r : Option Reply) := queued { holding with retPass := some { passOf .active (frameBody 6 5 1 0) with matched := some 7 } } [e r]
    (∀ r ∈ [none, some doneReply], entryOfId 7 (s r) = some (e r) ∧ (s r).store.restart = none)
      ∧ ((s none).retPass.map fun p => (p.followed, p.cut, decide (p.tx.length = p.rx.length), decide (serviceAt p.rx + 3 < p.rx.length), p.matched))
        = some (true, false, true, true, some 7)
      ∧ (List.replicate 64 (0 : Byte)).length ≤ 64 := by
  refine ⟨?_, by decide +kernel, by decide⟩
  intro r h
  simp only [List.mem_cons, List.not_mem_nil, or_false] at h
  obtain rfl | rfl := h <;> exact ⟨rfl, rfl⟩

theorem witness_OutboundCheckTakesRequest :
    let s := outgoing .active (goodFrame 6 5 1 0)
    (passOf .active (goodFrame 6 5 1 0)).followed = true ∧ (passOf .active (goodFrame 6 5 1 0)).cut = false
      ∧ (goodFrame 6 5 1 0).length = declaredLen (goodFrame 6 5 1 0) ∧ checkGood (goodFrame 6 5 1 0) = true
      ∧ (serviceByte (goodFrame 6 5 1 0) 0).toNat = (passOf .active (goodFrame 6 5 1 0)).station
      ∧ (serviceByte (goodFrame 6 5 1 0) 0).toNat ≠ ({ passOf .active (goodFrame 6 5 1 0) with station := 6 } : Pass).station
      ∧ checkGood (badFrame 6) = false
      ∧ s.svc.queue.length < 4 ∧ s.store.restart = none
      ∧ (0 : Byte).toNat = 0 ∧ 18 < (19 : Byte).toNat ∧ (4 < (payloadByte [5] 0).toNat) ∧ ((1 : Byte).toNat = 1 ∧ (18 : Byte).toNat = 18)
      ∧ ((8 : Byte).toNat = 8 ∧ (payloadByte [] 0).toNat = 0 ∧ (payloadByte [4] 0).toNat = 4) := by
  refine ⟨rfl, rfl, witness_frames.2.2.1, witness_frames.1, by decide +kernel, by decide +kernel, witness_frames.2.1, by decide, rfl, by decide,
    by decide, by decide, by decide, by decide, by decide⟩

theorem witness_ResultsBecomePresent :
    let e := replyEntry 7 6 1 (some doneReply) none
    let o := { e with record := true }
    let f := replyEntry 8 6 1 none none
    (e.answer = some doneReply ∧ e.result = none ∧ (queued holding [e]).store.restart = none ∧ awaiting (queued holding [e]) = [] ++ e :: [])
      ∧ (let s := { holding with svc := { holding.svc with orphans := [o] } }
         awaiting s = [o] ∧ o.record = true ∧ s.svc.queue = [] ∧ (awaiting s)[1]? = none)
      ∧ (requestKind .identify = some 1 ∧ takesRequests State.reset = false)
      ∧ (let s := queued holding [e, f]
         takesRequests s = true ∧ awaiting s = [e] ++ f :: [] ∧ (∀ x ∈ [e], x.answer ≠ none) ∧ f.answer = none ∧ Asks .identify f
           ∧ (∃ x ∈ s.svc.queue, x.id = f.id)
           ∧ ∃ v rep, exec .identify { s with svc := { s.svc with queue := [], orphans := [] } } = .next v ∧ v.svc.lastReply = some rep) := by
  refine ⟨⟨rfl, rfl, rfl, rfl⟩, ⟨rfl, rfl, rfl, rfl⟩, ⟨rfl, rfl⟩, rfl, rfl, ?_, rfl, ⟨rfl, trivial⟩, ⟨_, .tail _ (.head _), rfl⟩, _, _, rfl, rfl⟩
  intro x hx
  obtain rfl := List.mem_singleton.mp hx
  intro h; cases h

/-- The silence time of the run is 4,000 µs: one that would end together with the check word does not end before it (log 7). -/
theorem witness_ReturnCheckWordDecides :
    let s := returning .active (goodFrame 6 5 1 0)
    (passOf .active (goodFrame 6 5 1 0)).followed = true ∧ (goodFrame 6 5 1 0).length = declaredLen (goodFrame 6 5 1 0)
      ∧ (passOf .active (goodFrame 6 5 1 0)).cut = false ∧ s.store.restart = none ∧ silenceLeft s = some 4000
      ∧ ¬ 4000 < 0 + 4000 ∧ 4000 < 0 + 4001 ∧ 9999 + 1 ≤ 10000
      ∧ checkGood (goodFrame 6 5 1 0) = true ∧ (passOf .active (goodFrame 6 5 1 0)).voided = false ∧ s.lpu.opState = .active
      ∧ (passOf .active (badFrame 6)).followed = true ∧ (badFrame 6).length = declaredLen (badFrame 6) ∧ checkGood (badFrame 6) = false
      ∧ (let p : PassMode → Bool → Bool → Pass := fun m sh v => { passOf m (goodFrame 6 5 1 0) with short := sh, voided := v }
         (p .active true false).short = true ∧ (p .active true false).followed = true ∧ (p .bypass true false).mode = .bypass
           ∧ (p .bypass true false).followed = true ∧ (p .active false true).voided = true ∧ (p .active false true).short = false
           ∧ inBypass.lpu.opState ≠ .active) :=
  ⟨rfl, witness_frames.2.2.1, rfl, rfl, by decide, by decide, by decide, by decide, witness_frames.1, rfl, rfl, rfl, witness_frames.2.2.2.1, witness_frames.2.1,
    rfl, rfl, rfl, rfl, rfl, rfl, by decide⟩

/-- miss_limit is 2: gaps 0, 1, 3 and 4 from L = 5. -/
theorem witness_ReturnFramesClassified :
    inBypass.lpu.ext = none ∧ holding.lpu.ext = some 5 ∧ holding.lpu.last = some 5 ∧ holding.lpu.resyncDue = false
      ∧ holding.tables.active.cell.missLimit + 1 = 3 ∧ ((5 : BitVec 16) - 5).toNat = 0 ∧ ((6 : BitVec 16) - 5).toNat = 1
      ∧ ((8 : BitVec 16) - 5).toNat = 3 ∧ ((9 : BitVec 16) - 5).toNat = 4
      ∧ ({ holding.lpu with resyncDue := true } : Lpu).resyncDue = true := by decide

theorem witness_CycleNumberKeptAndRising :
    CycleOk (waiting .identify) ∧ (waiting .identify).lpu.ext = some 5 ∧ (waiting .identify).lpu.opState = .active
      ∧ ∃ t, step (waiting .identify) = .next t ∧ t.lpu.ext = some 5 :=
  ⟨rfl, rfl, rfl, _, rfl, rfl⟩

theorem witness_AcceptedCyclePublishes :
    groupOfRoller cfg 2 = none ∧ groupOfRoller cfg 0 = some 0 ∧ holding.slot.buffers.get 0 = none
      ∧ (let ch := (rollerIn .released).chan
         let m (f : Bool) := measure (rollerCfg none) 1000 1 false ⟨⟨true, true, true, f⟩, 1, 5, 0⟩ ch
         (m true).fault = true ∧ (m false).fault = false
           ∧ (stageWork 50 30 1 (some ⟨true, true, true, false⟩) (rollerIn .released)).2 = false
           ∧ (stageWork 50 30 1 (some readyStatus) (rollerIn .released)).2 = true) := by decide

theorem witness_SilenceExpiryRaisesLineFault :
    (holding.lpu.opState = .active ∧ holding.lpu.ext = some 5 ∧ holding.lpu.silenceTimer = some 0 ∧ holding.store.restart = none)
      ∧ (holding.groups.get 0).state ≠ .idle ∧ (holding.groups.get 1).state = .idle := by decide

/-- A wind-down of group 0 with its members in a stage. -/
def windingDown (st : Stage) : State :=
  { inRunWith .stopping st with groups := holding.groups.set 0 { groupIn .stopping with windDown := true } }

theorem witness_HardFaultActsByGroupState :
    (∀ st ∈ [GroupState.idle, .faulted, .engaging, .disengaging, .hold, .follow, .track, .stopping], ((inRunWith st .released).groups.get 0).state = st)
      ∧ anyMember holding 0 isReleased = true ∧ anyMember (inRunWith .hold .safe) 0 isReleased = false
      ∧ ((inRunWith .stopping .released).groups.get 0).windDown = false ∧ (windingDown .safe).groups.get 0 = { groupIn .stopping with windDown := true }
      ∧ (∀ i, isMember cfg 0 i = true → ((windingDown .safe).rollers.get i).seq.stage = .safe)
      ∧ isMember cfg 0 0 = true ∧ ((windingDown .applying).rollers.get 0).seq.stage ≠ .safe
      ∧ isMember cfg 0 2 ≠ true ∧ (1 : Fin 4) ≠ 0 ∧ ((inRunWith .stopping .safe).groups.get 0).windDown = false
      ∧ anyMember (inRunWith .stopping .safe) 0 isReleased = false := by decide

theorem witness_TimersExpireToSafe :
    (let s := { holding with rollers := holding.rollers.set 0 { rollerIn .applying with seq := enterTimed .applying } }
     s.lpu.opState = .active ∧ (s.rollers.get 0).seq.timer = some 0 ∧ groupOfRoller s.tables.active 0 = some 0
       ∧ groupOfRoller s.tables.active 2 = none)
      ∧ (let s := { holding with groups := holding.groups.set 0 { groupIn .stopping with settle := some 0 } }
         (s.groups.get 0).state = .stopping ∧ (s.groups.get 0).settle = some 0) := by decide

theorem witness_SamplesHandled :
    let ch : Channel := { Channel.initial RollerFlags.none with lastStamp := some 7, baseline := some 0 }
    ch.lastStamp = some (Sample.stamp ⟨readyStatus, 7, 0, 0⟩) ∧ ch.lastStamp ≠ some (Sample.stamp ⟨readyStatus, 8, 0, 0⟩) ∧ ch.baseline = some 0
      ∧ (Channel.initial RollerFlags.none).lastStamp ≠ some (Sample.stamp ⟨readyStatus, 8, 0, 0⟩)
      ∧ (Channel.initial RollerFlags.none).baseline = none
      ∧ ¬ ((rollerCfg none).jumpLimit * (0 + 1) < (8000 : Int).natAbs) ∧ (rollerCfg none).jumpLimit * (0 + 1) < (8001 : Int).natAbs := by decide

theorem witness_DistanceKeptExactly :
    (Channel.initial RollerFlags.none).fraction < 65536 ∧ FractionOk (waiting .identify) ∧ (∃ t, step (waiting .identify) = .next t)
      ∧ ((2 : Int) ^ 31).natAbs ≤ 2 ^ 31 ∧ 2 ^ 32 - 1 < 2 ^ 32 :=
  ⟨by decide, fun i => by match i with | 0 | 1 | 2 | 3 => decide, ⟨_, rfl⟩, by decide, by decide⟩

/-- Every move of the sequence is made by some stage work. -/
theorem witness_StageWorkFollowsOrder :
    let work (q : Sequence) (x : Status) := (stageWork 50 30 1 (some x) { rollerIn .safe with seq := q }).1.seq.stage
    work { enterTimed .enabling with commanded := true } ⟨true, true, false, false⟩ = .energised
      ∧ work { enterTimed .energised with held := .release } ⟨true, true, false, false⟩ = .releasing
      ∧ work (enterTimed .releasing) ⟨true, true, true, false⟩ = .released
      ∧ work { enterReleased with held := .apply } ⟨true, true, true, false⟩ = .applying
      ∧ work (enterTimed .applying) ⟨true, true, false, false⟩ = .disabling ∧ work (enterTimed .enabling) readyStatus = .enabling
      ∧ ackOk .released readyStatus = false ∧ ackOk .disabling readyStatus = true ∧ readyStatus.enabled = false
      ∧ ((enterTimed .enabling).commanded = false ∧ (enterTimed .enabling).timer = some 0 ∧ readyStatus.brakeOpen = false
          ∧ readyStatus.fault = false ∧ readyStatus.ready = true ∧ ({ readyStatus with ready := false } : Status).ready = false)
      ∧ (let r := { rollerIn .safe with seq := { Sequence.safe with stage := .applying, timer := some 48 } }
         (testHeld 30 r).seq.stage = r.seq.stage ∧ (testHeld 30 r).seq.timer = some 48 ∧ min 65535 (48 + 1) < 50 ∧ 50 ≤ min 65535 (48 + 2))
      ∧ (testHeld 30 (rollerIn .released)).seq.timer = none ∧ (sampleStep readyStatus (rollerIn .released)).2.2 = true
      ∧ (testHeld 30 { rollerIn .safe with seq := { enterTimed .energised with held := .release } }).seq.stage ≠ .energised := by decide

theorem witness_RoadLoadOpposesMotion :
    loadsCheck { a := 50000, b := 100000, c := 50000, vCreep := 2000 } = true ∧ (2000 : Nat) ≤ 2000 ∧ 1999 < (2000 : Nat)
      ∧ roadMagnitude { a := 50000, b := 100000, c := 50000, vCreep := 2000 } 70000 = 365000
      ∧ (cfg.groups.get 0).loadSet = (0 : Fin 8).val := by decide

theorem witness_LoadBlendRunsBetweenCurves :
    (∀ j ∈ [0, 4], 0 < (⟨factoryLoads, j, 4⟩ : LoadBlend).len ∧ (⟨factoryLoads, j, 4⟩ : LoadBlend).pos ≤ 4)
      ∧ holding.lpu.opState = .active := by decide

/-- vmax_g is met and passed by one: 70,000 and 70,001. -/
theorem witness_IntegrationConservesImpulse :
    let g : Group := { groupIn .follow with speed := 70000 }
    0 < 1700 ∧ (g.speed + (0 * (1 * 1000 : Nat) + g.residue) / ((10000 * 1700 : Nat) : Int)).natAbs ≤ 70000
      ∧ 70000 < (g.speed + (17000 * (1 * 1000 : Nat) + g.residue) / ((10000 * 1700 : Nat) : Int)).natAbs
      ∧ dStopMin cfg 0 = 6000 ∧ (6 : Int).natAbs ≤ max 1 (dStopMin cfg 0 * 1 * 1000 / 1000000)
      ∧ max 1 (dStopMin cfg 0 * 1 * 1000 / 1000000) < (7 : Int).natAbs
      ∧ ∃ i, (cfg.rollers.get i).group = some (0 : Fin 4).val := by decide

theorem witness_ResiduesKeptByEveryStep :
    (∀ g : Fin 4, (waiting .identify).lpu.opState = .active ∧ 0 < ((waiting .identify).tables.active.groups.get g).mass
      ∧ 0 ≤ ((waiting .identify).groups.get g).residue
      ∧ ((waiting .identify).groups.get g).residue < (10000 * ((waiting .identify).tables.active.groups.get g).mass : Nat))
      ∧ ∃ t, step (waiting .identify) = .next t :=
  ⟨by decide, _, rfl⟩

/-- A step of 3 mm/s: a sum of 4 and of −4 lie farther away than a step; a sum of 70,001 is changed by the clamp, one of 70,000 is not. -/
theorem witness_SetpointsLimited :
    ((rollerIn .released).seq.stage = .released ∧ (rollerIn .safe).seq.stage ≠ .released)
      ∧ (let step := max 1 ((rollerCfg none).aMax * 1 * 1000 / 1000000)
         step = 3 ∧ (rollerIn .released).coup.prevSet + step < (4 : Int) ∧ (-4 : Int) + step < (rollerIn .released).coup.prevSet)
      ∧ (let acts := fun (sum : Int) => ∃ i, (holding.tables.active.rollers.get i).group = some (0 : Fin 4).val
           ∧ (holding.rollers.get i).seq.stage = .released
           ∧ (holding.tables.active.rollers.get i).vmax < ((Quad.all (⟨0, sum, none, 0⟩ : Composed)).get i).sum.natAbs
         acts 70001 ∧ ¬ acts 70000) := by decide

theorem witness_CorrectionStaysInShare :
    let y : GroupsEntry := { mass := 1700, loadSet := 0, kp := 20000, corrMax := 5000, slipLimit := 2000, trackBlend := 4096 }
    0 < y.trackBlend ∧ 4096 ≤ y.trackBlend ∧ groupsCheck y = true ∧ (2000000000 : Int).natAbs ≤ y.slipLimit * 1000000
      ∧ (holding.groups.get 0).state ≠ .track ∧ ((inRunWith .track .released).groups.get 0).state = .track := by decide

/-- A run in TRACK with roller 0's reference at a distance, 20 mm being its slip limit. -/
def tracking (d : Int) : State :=
  let s := inRunWith .track .released
  { s with
    groups := s.groups.set 0 { groupIn .track with dir := .steady, blendPos := 200 }
    rollers := s.rollers.set 0 { rollerIn .released with coup := { Coupling.initial with reference := some d } } }

theorem witness_TrackStaysWithinSlip :
    ((composeGroup 0 1 (tracking 20000000, Quad.all 0)).1.groups.get 0).state = .track
      ∧ (let error := fun (s : State) => ((advanceRefs 0 1 s).rollers.get 0).coup.reference.map fun ref => ref - (s.rollers.get 0).chan.distance
         (cfg.rollers.get 0).group = some (0 : Fin 4).val ∧ (cfg.groups.get 0).slipLimit * 1000000 = 20000000
           ∧ error (tracking 20000001) = some 20000001 ∧ error (tracking 20000000) = some 20000000
           ∧ ((tracking 20000000).groups.get 0).state = .track) := by decide +kernel

theorem witness_TrackBlendEnds :
    (let s (d : BlendDir) := { tracking 0 with groups := holding.groups.set 0 { groupIn .track with dir := d } }
     ∀ d ∈ [BlendDir.inward, .outward], (s d).lpu.opState = .active ∧ ((s d).groups.get 0).state = .track ∧ ((s d).groups.get 0).dir = d)
      ∧ ((tracking 5).groups.get 0).dir = .steady ∧ (holding.groups.get 0).state ≠ .track
      ∧ ((tracking 5).groups.get 0).blendPos = 200 ∧ isMember cfg 0 0 = true ∧ isMember cfg 0 2 = false
      ∧ ((tracking 5).rollers.get 0).coup.reference = some 5 ∧ ((tracking 5).rollers.get 1).coup.reference = none
      ∧ ((tracking 5).rollers.get 0).coup.prevBase = 0 ∧ (5 : Int) ≤ 9223372036854775807 ∧ (cfg.groups.get 0).trackBlend = 200
      ∧ (factoryTables.groups.get 0).trackBlend = 1 ∧ (holding.groups.get 0).dir = .none := by
  decide

theorem witness_ReleaseNeverWithoutEnable : CommandsOk (waiting .firstOutField) ∧ ∃ t, step (waiting .firstOutField) = .next t :=
  ⟨⟨fun i => by match i with | 0 | 1 | 2 | 3 => decide, fun p x h => by cases h⟩, _, rfl⟩

/-- Group 0 has members, group 1 has none; a stop about to complete, one that waits, and the two tests of ENGAGING. -/
theorem witness_GroupTestsFollowTheirTable :
    hasMembers cfg 1 = false ∧ hasMembers cfg 0 = true
      ∧ (let x := (inRunWith .stopping .released).groups.get 0
         x.state = .stopping ∧ x.windDown = false ∧ x.cause ≠ .rollerFault ∧ x.speed = 0 ∧ x.settle = none)
      ∧ (∀ i, isMember cfg 0 i = true → ((inRunWith .stopping .released).rollers.get i).chan.speed.natAbs ≤ 30)
      ∧ settleLimit cfg 0 = 50 ∧ min 65535 (48 + 1) < settleLimit cfg 0 ∧ settleLimit cfg 0 ≤ min 65535 (48 + 2)
      ∧ (∀ i, isMember cfg 0 i = true → ((inRunWith .engaging .energised).rollers.get i).published = .energised)
      ∧ (∀ i, isMember cfg 0 i = true → ((inRunWith .engaging .released).rollers.get i).published = .released)
      ∧ (∀ i, isMember cfg 0 i = true → ((inRunWith .disengaging .safe).rollers.get i).seq.stage = .safe)
      ∧ ((inRunWith .disengaging .applying).rollers.get 0).seq.stage ≠ .safe
      ∧ ({ groupIn .stopping with cause := .rollerFault } : Group).cause = .rollerFault
      ∧ (let s := windingDown .released
         (s.groups.get 0).windDown = true ∧ (s.rollers.get 0).seq.stage ≠ .safe ∧ (s.groups.get 0).settle = none
           ∧ anyMember s 0 isReleased = true ∧ anyMember (windingDown .applying) 0 isReleased = false
           ∧ ({ groupIn .stopping with windDown := true, settle := some 48 } : Group).settle = some 48)
      ∧ (∀ i, isMember cfg 0 i = true → ((windingDown .safe).rollers.get i).seq.stage = .safe)
      ∧ ((inRunWith .engaging .enabling).rollers.get 0).published ≠ .energised
      ∧ ((inRunWith .engaging .enabling).rollers.get 0).published ≠ .released := by decide

theorem witness_requests_taken : takesRequests inBypass = true ∧ takesRequests holding = true := by decide

theorem witness_IdentifyAndStatusChangeNothing :
    takesRequests inBypass = true ∧ inBypass.store.state = .idle ∧ inBypass.svc.unanswered = none ∧ TraceOk inBypass
      ∧ (let s := { inBypass with
           store := { inBypass.store with state := .saving cfg }, svc := { inBypass.svc with unanswered := some ⟨19, 65535, .unknown⟩ } }
         takesRequests s = true ∧ s.store.state = .saving cfg ∧ s.svc.unanswered = some ⟨19, 65535, .unknown⟩) := by
  refine ⟨witness_requests_taken.1, rfl, rfl, ⟨by decide, by decide, by decide, by decide, by decide, by decide, List.Pairwise.nil, ?_, ?_⟩,
    by decide, rfl, rfl⟩
  · intro _ _; rfl
  · intro e h; cases h

theorem witness_ClearFlagsClearsNamedFlags : takesRequests holding = true := witness_requests_taken.2

theorem witness_StartBeginsARun :
    takesRequests inBypass = true ∧ inBypass.lpu.opState = .bypass ∧ startCheck inBypass.tables.active = true
      ∧ startCheck factoryTables = false ∧ holding.lpu.opState = .active := by decide +kernel

theorem witness_HaltEndsARun :
    let s := inRunWith .faulted .safe
    takesRequests s = true ∧ s.lpu.opState = .active ∧ (∀ g, (s.groups.get g).state = .idle ∨ (s.groups.get g).state = .faulted)
      ∧ s.tables.due = LiveDue.none ∧ ((holding.groups.get 0).state ≠ .idle ∧ (holding.groups.get 0).state ≠ .faulted)
      ∧ inBypass.lpu.opState = .bypass ∧ LiveDue.none.at (.loads 7) = false
      ∧ ({ s.tables with due := LiveDue.none.put (.loads 0) true } : TableManager).due = LiveDue.none.put (.loads 0) true
      ∧ liveCheck s.tables.active (.loads 0) (s.tables.staging.entryAt (.loads 0)) = true
      ∧ liveCheck s.tables.active (.rollers 0) (factoryTables.entryAt (.rollers 0)) = false := by decide +kernel

theorem witness_GroupActionsMoveGroups :
    (∀ st ∈ [GroupState.idle, .engaging, .hold, .follow, .track, .stopping, .disengaging, .faulted],
        let s := inRunWith st .released
        takesRequests s = true ∧ s.lpu.opState = .active ∧ hasMembers s.tables.active 0 = true ∧ (s.groups.get 0).state = st)
      ∧ (0 : Byte).toNat = (0 : Fin 4).val ∧ holding.lpu.ext ≠ none
      ∧ (∀ i, isMember cfg 0 i = true → ((inRunWith .idle .safe).rollers.get i).chan.latch = ⟨false, false, false, false⟩
          ∧ ((inRunWith .idle .safe).rollers.get i).chan.lastStatus = some readyStatus)
      ∧ readyStatus.ready = true ∧ readyStatus.fault = false ∧ ((tracking 0).groups.get 0).dir ≠ .outward
      ∧ ({ groupIn .track with dir := .outward } : Group).dir = .outward := by decide

theorem witness_GroupActionsRefused :
    takesRequests inBypass = true ∧ inBypass.lpu.opState ≠ .active ∧ hasMembers cfg 1 = false ∧ (1 : Byte).toNat = (1 : Fin 4).val
      ∧ (∀ g : Fin 4, (4 : Byte).toNat ≠ g.val) ∧ ((inRunWith .faulted .safe).groups.get 0).state = .faulted
      ∧ takesRequests holding = true ∧ holding.lpu.opState = .active ∧ hasMembers cfg 0 = true ∧ isMember cfg 0 0 = true
      ∧ ((inRunWith .idle .safe).groups.get 0).state = .idle ∧ (Roller.initial RollerFlags.none).chan.lastStatus = none
      ∧ ({ holding.lpu with ext := none, last := none } : Lpu).ext = none ∧ ({ Latch.clear with driveFault := true } : Latch) ≠ ⟨false, false, false, false⟩
      ∧ (⟨false, false, false, true⟩ : Status).ready = false ∧ (⟨false, false, false, true⟩ : Status).fault = true := by decide

theorem witness_ReadEntryReturnsTheEntry :
    takesRequests inBypass = true ∧ tableOf 4 = some .loads ∧ placeOf .loads 7 = some (.loads 7) ∧ placeOf .loads 8 = none
      ∧ (1 : Byte).toNat < 2 ∧ 1 < (2 : Byte).toNat ∧ 4 < (5 : Byte).toNat := by decide

/-- A run with two records in the list, of ROLLERS and GROUPS due at 6 and of LOADS due at 7. -/
def withRecords (s : State) : State :=
  { s with tables := { s.tables with
    changes := [⟨12, some 6, none, some 6⟩, ⟨16, some 7, some 4, some 7⟩]
    ctl := ⟨TableCtl.initial, TableCtl.initial, ⟨false, true, .unlocked⟩, ⟨false, true, .unlocked⟩, ⟨false, true, .unlocked⟩⟩ } }

/-- A part with the LIVE flag of LOADS on, in BYPASS or in a run. -/
def liveLoads (s : State) : State := { s with tables := { s.tables with ctl := s.tables.ctl.set .loads ⟨true, false, .unlocked⟩ } }

theorem witness_WriteEntryWritesStaging :
    let e : LoadsEntry := { a := 1800, b := 5000, c := 4500, vCreep := 500 }
    tableOf 4 = some (Place.loads 0).table ∧ placeOf .loads (0 : Byte).toNat = some (.loads 0) ∧ (loadsBytes e).length = entrySize .loads
      ∧ entryOf .loads (loadsBytes e) = some (.loads e) ∧ entryCheck (.loads e) = true
      ∧ (∀ s ∈ [inBypass, holding], takesRequests (liveLoads s) = true ∧ ((liveLoads s).tables.ctl.get .loads).live = true
          ∧ (s.tables.ctl.get .loads).lock = .unlocked ∧ inFreeze s = false ∧ (s.tables.ctl.get .loads).pinned = false
          ∧ (s.tables.ctl.get .loads).live = false ∧ liveCheck s.tables.active (.loads 0) (.loads e) = true)
      ∧ inFreeze frozen = true ∧ 4 < (5 : Byte).toNat ∧ ([] : List Byte).length ≠ entrySize .loads ∧ placeOf .loads (8 : Byte).toNat = none
      ∧ ((withRecords holding).tables.ctl.get .loads).pinned = true ∧ ((withRecords holding).tables.ctl.get .loads).lock = .unlocked
      ∧ entryOf .loads (List.replicate 10 255) = some (.loads (loadsOf (List.replicate 10 255)))
      ∧ entryCheck (.loads (loadsOf (List.replicate 10 255))) = false ∧ entryOf .slots [7, 0, 0, 0, 0] = none
      ∧ entryCheck (.rollers (rollerCfg none)) = true ∧ liveCheck cfg (.rollers 0) (.rollers (rollerCfg none)) = false
      ∧ liveCheck cfg (.rollers 0) (.rollers (rollerCfg (some 1))) = true
      ∧ ((cfg.rollers.get 0).group ≠ some 1 ∧ (cfg.rollers.get 0).group = some (0 : Fin 4).val
          ∧ (holding.groups.get 0).state ≠ .idle ∧ (holding.groups.get 0).state ≠ .faulted) := by decide +kernel

theorem witness_SetLiveSetsAndClears :
    takesRequests inBypass = true ∧ tableOf 2 = some .rollers ∧ (inBypass.tables.ctl.get .rollers).lock = .unlocked ∧ inFreeze inBypass = false
      ∧ inFreeze frozen = true ∧ (1 : Byte).toNat < 2 ∧ 4 < (5 : Byte).toNat := by decide

/-- A mask of LOADS alone, with blend cycles 4,096; a mask of every table in BYPASS; an effective cycle 2^20 ahead. -/
theorem witness_CommitAppliesOrWaits :
    let all : Byte := 31
    let loads : Byte := 16
    (takesRequests inBypass = true ∧ all ≠ 0 ∧ all.toNat < 32 ∧ inBypass.lpu.opState = .bypass ∧ inFreeze inBypass = false
        ∧ (∀ t ∈ tablesInOrder, (inBypass.tables.ctl.get t).lock = .unlocked)
        ∧ commitCheck (maskNames all) inBypass.tables.staging inBypass.tables.active = true ∧ (0 : Byte).getLsbD 0 = false)
      ∧ (takesRequests holding = true ∧ holding.lpu.opState = .active ∧ maskNames loads .cell = false ∧ maskNames loads .slots = false
        ∧ (∀ t ∈ tablesInOrder, (holding.tables.ctl.get t).pinned = false) ∧ holding.tables.changes.length < 8
        ∧ commitCheck (maskNames loads) holding.tables.staging holding.tables.active = true ∧ holding.lpu.ext = some 5
        ∧ ¬ ((4096 : BitVec 16).toNat = 0 ∨ 4096 < (4096 : BitVec 16).toNat) ∧ 5 + 1 ≤ 1048581 ∧ 1048581 ≤ 5 + 1048576)
      ∧ inFreeze frozen = true ∧ 32 ≤ (32 : Byte).toNat ∧ ((2 : Byte).getLsbD 1 = true ∧ 4096 < (4097 : BitVec 16).toNat)
      ∧ (1 : Byte).getLsbD 0 = true ∧ commitCheck (maskNames 4) factoryTables cfg = false ∧ maskNames 1 .cell = true
      ∧ ({ holding.lpu with ext := none } : Lpu).ext = none ∧ ¬ (5 + 1 ≤ 5 ∧ 5 ≤ 5 + 1048576) ∧ ¬ (5 + 1 ≤ 1048582 ∧ 1048582 ≤ 5 + 1048576)
      ∧ (maskNames 16 .loads = true ∧ ((withRecords holding).tables.ctl.get .loads).pinned = true)
      ∧ 8 ≤ (List.replicate 8 (⟨0, none, none, none⟩ : ChangeRecord)).length
      ∧ (∀ t ∈ tablesInOrder, ((withRecords holding).tables.ctl.get t).lock = .unlocked) := by decide +kernel

theorem witness_CancelRemovesNamedRecords : takesRequests holding = true ∧ (31 : Byte).toNat < 32 ∧ 32 ≤ (32 : Byte).toNat := by decide

theorem witness_PendingListKeptByEveryStep :
    ChangesOk (withRecords (waiting (.cancel 4))) ∧ ∃ t, step (withRecords (waiting (.cancel 4))) = .next t := by
  refine ⟨⟨by decide, ?_, ?_, ?_⟩, _, rfl⟩
  · exact List.Pairwise.cons (by decide) (List.Pairwise.cons (by decide) List.Pairwise.nil)
  · refine List.Pairwise.cons ?_ (List.Pairwise.cons (fun _ h => (by cases h)) List.Pairwise.nil)
    intro x hx t
    simp only [List.mem_cons, List.not_mem_nil, or_false] at hx
    subst hx
    cases t <;> decide
  · intro t; cases t <;> decide

/-- The record due at 6 is taken at E = 6 and not at E = 5, the one due at 7 stays. -/
theorem witness_DueChangesTaken :
    (withRecords holding).tables.due = LiveDue.none
      ∧ ((withRecords holding).tables.changes.map fun r => (r.due.map fun d => (decide (d ≤ 6), decide (5 < d)))) = [some (true, true), some (false, true)]
      ∧ commitCheck (maskNames 12) cfg cfg = true ∧ groupChangeOk holding cfg = true ∧ commitCheck (maskNames 4) factoryTables cfg = false
      ∧ liveCheck cfg (.loads 7) (.loads factoryLoads) = true ∧ liveCheck cfg (.rollers 0) (.rollers factoryRollers) = false
      ∧ holding.tables.changes = []
      ∧ (placesInOrder = [] ++ .cell :: placesInOrder.tail ∧ (LiveDue.none.put .cell true).at .cell = true)
      ∧ (placesInOrder = placesInOrder.take 20 ++ .loads 7 :: [] ∧ (LiveDue.none.put (.loads 7) true).at (.loads 7) = true
          ∧ ∀ q ∈ placesInOrder.take 20, (LiveDue.none.put (.loads 7) true).at q = false)
      ∧ (groupIn .faulted).state = .faulted ∧ (∃ i, isMember cfg 0 i = true)
      ∧ (∀ i, isMember { cfg with rollers := Quad.all (rollerCfg none) } 0 i = false)
      ∧ (cfg.rollers.get 0).group ≠ (rollerCfg (some 1)).group ∧ (rollerCfg (some 1)).group = some (1 : Fin 4).val := by decide +kernel

/-- A LOCKED_DOWN LOADS table. -/
def lockedDown (s : State) : State := { s with tables := { s.tables with ctl := s.tables.ctl.set .loads ⟨false, false, .lockedDown⟩ } }

theorem witness_LocksMoveAsTheTableGives :
    (takesRequests inBypass = true ∧ (31 : Byte) ≠ 0 ∧ (31 : Byte).toNat < 32 ∧ 32 ≤ (32 : Byte).toNat ∧ inFreeze inBypass = false
        ∧ inFreeze frozen = true ∧ (∀ t ∈ tablesInOrder, (inBypass.tables.ctl.get t).lock ≠ .lockedDown)
        ∧ maskNames 16 .loads = true ∧ ((lockedDown inBypass).tables.ctl.get .loads).lock = .lockedDown)
      ∧ (let s := lockedDown (waiting (.unlock 16))
         (s.tables.ctl.get .loads).lock = .lockedDown ∧ s.pending.head? ≠ some .powerUp ∧ s.pending.head? ≠ some .powerDown
           ∧ ∃ t, step s = .next t) :=
  ⟨by decide, by decide, by decide, by decide, _, rfl⟩

theorem witness_TraceRequests :
    takesRequests holding = true ∧ (3 : Byte).toNat = (3 : Fin 4).val ∧ 1 ≤ (64 : Byte).toNat ∧ (64 : Byte).toNat ≤ 64 ∧ (1 : Byte).toNat < 2
      ∧ 3 < (4 : Byte).toNat ∧ (0 : Byte).toNat = 0 ∧ 64 < (65 : Byte).toNat ∧ 1 < (2 : Byte).toNat ∧ holding.trace.records = [] := by decide

/-- A buffer with room and a full one; a count of d and one below it; a cycle counted already. -/
theorem witness_TraceAppendsOrCounts :
    (let s := { holding with trace := { holding.trace with enable := true } }
     s.lpu.opState = .active ∧ s.lpu.ext = some 5 ∧ s.trace.enable = true ∧ s.trace.lastCounted ≠ some 5 ∧ s.trace.counter + 1 = s.trace.decimation
       ∧ ¬ (s.trace.write.index = s.trace.read.index ∧ s.trace.write.wrap ≠ s.trace.read.wrap))
      ∧ ((⟨5, true⟩ : TracePtr).index = (⟨5, false⟩ : TracePtr).index ∧ (⟨5, true⟩ : TracePtr).wrap ≠ (⟨5, false⟩ : TracePtr).wrap)
      ∧ (holding.trace.enable = false ∧ inBypass.lpu.opState ≠ .active ∧ inBypass.lpu.ext = none
          ∧ ({ holding.trace with lastCounted := some 5 } : TraceBuffer).lastCounted = holding.lpu.ext
          ∧ ({ holding.trace with decimation := 10, counter := 3 } : TraceBuffer).counter + 1 ≠ 10)
      ∧ (TraceOk (waiting .readTrace) ∧ ∃ t, step (waiting .readTrace) = .next t) := by
  refine ⟨by decide, by decide, by decide, ⟨by decide, by decide, by decide, by decide, by decide, by decide, List.Pairwise.nil, ?_, ?_⟩, _, rfl⟩
  · intro _ _; rfl
  · intro e _ r h; cases h

end Sys2Proof.Tests
end

section
/-! SUPPORT. What every command keeps of the frames in passage and of E and L: the frames in passage forward as they must (01 R1, R3), and E
and L stay or are both unset in all commands but RETURN_CHECK_WORD (01 R16, R22). -/

namespace Sys2Proof.Machine

open Sys2Proof.Laws

/-- A request row serves the request it stands for. -/
theorem exec_request {c : Instr} {r : Request} (h : requestIn c = some r) (s : State) : exec c s = .next (serveRow r s) := by
  cases c <;> cases h <;> rfl

/-- E and L are as they were, or both unset (01 R16, R22). -/
def CycleKept (x y : Lpu) : Prop := (y.ext = x.ext ∧ y.last = x.last) ∨ (y.ext = none ∧ y.last = none)

theorem CycleKept.refl (x : Lpu) : CycleKept x x := .inl ⟨rfl, rfl⟩

theorem CycleKept.trans {x y z : Lpu} (h : CycleKept x y) (k : CycleKept y z) : CycleKept x z := by
  rcases k with ⟨he, hl⟩ | k
  · unfold CycleKept
    rw [he, hl]
    exact h
  · exact .inr k

/-- What an operation outside acceptance keeps: the frames in passage forward as they must if they did, and E and L stay or are unset. -/
structure Orderly (s t : State) : Prop where
  passes : PassesOk s → PassesOk t
  cycle : CycleKept s.lpu t.lpu

theorem Orderly.refl (s : State) : Orderly s s := ⟨id, .refl _⟩

theorem Orderly.trans {s t u : State} (h : Orderly s t) (k : Orderly t u) : Orderly s u :=
  ⟨k.passes ∘ h.passes, h.cycle.trans k.cycle⟩

/-- An operation that leaves both passes as they are keeps what the line port holds of E and L. -/
theorem Orderly.of_passes {s t : State} (ho : t.outPass = s.outPass) (hr : t.retPass = s.retPass) (hl : CycleKept s.lpu t.lpu) :
    Orderly s t := by
  refine ⟨fun h => ?_, hl⟩
  unfold PassesOk
  rw [ho, hr]
  exact h

/-- An operation that touches neither a pass nor the line port. -/
theorem Orderly.of_fields {s t : State} (ho : t.outPass = s.outPass) (hr : t.retPass = s.retPass) (hl : t.lpu = s.lpu) : Orderly s t :=
  .of_passes ho hr (hl ▸ .refl _)

theorem OnlyMotion.orderly {s t : State} (h : OnlyMotion s t) : Orderly s t := by
  rw [h]
  exact .of_fields rfl rfl rfl

theorem OnlyApplied.orderly {s t : State} (h : OnlyApplied s t) : Orderly s t := by
  rw [h]
  exact .of_fields rfl rfl rfl

/-- No pass is in progress afterwards, and the line port has its reset values (01 R22). -/
theorem Orderly.of_reset {s t : State} (ho : t.outPass = none) (hr : t.retPass = none) (he : t.lpu.ext = none) (hl : t.lpu.last = none) :
    Orderly s t :=
  ⟨fun _ => by simp [PassesOk, ho, hr], .inr ⟨he, hl⟩⟩

/-! ### Passes that forward as they must -/

/-- Every pass a port can hold forwards as it must. -/
def PortOk (o : Option Pass) : Prop := ∀ p, o = some p → PassOk p

theorem passesOk_iff (s : State) : PassesOk s ↔ PortOk s.outPass ∧ PortOk s.retPass := Iff.rfl

theorem portOk_none : PortOk none := by simp [PortOk]

theorem portOk_some {p : Pass} : PortOk (some p) ↔ PassOk p := by simp [PortOk]

/-- A change that leaves a pass its bytes keeps what it forwards. -/
theorem PortOk.map {o : Option Pass} (h : PortOk o) (f : Pass → Pass)
    (hf : ∀ p, (f p).rx = p.rx ∧ (f p).tx = p.tx ∧ (f p).written = p.written) : PortOk (o.map f) := by
  intro q hq
  obtain ⟨p, hp, rfl⟩ := Option.map_eq_some_iff.mp hq
  obtain ⟨hrx, htx, hw⟩ := hf p
  unfold PassOk
  rw [hrx, htx, hw]
  exact h p hp

theorem SameButStation.portOk {o o' : Option Pass} (k : SameButStation o o') (h : PortOk o) : PortOk o' := by
  rcases k with rfl | ⟨n, rfl⟩
  · exact h
  · exact h.map _ fun p => by rw [Pass.meetStation_spec]; exact ⟨rfl, rfl, rfl⟩

theorem PortOk.cutPass {o : Option Pass} (h : PortOk o) : PortOk (cutPass o) :=
  h.map _ fun _ => ⟨rfl, rfl, rfl⟩

/-- Bytes placed behind the header keep the length and the header, and a frame into which none is placed stays as it arrived (01 R3). -/
theorem PassOk.write {p : Pass} (h : PassOk p) {off : Nat} (ho : 5 ≤ off) (bs : List Byte) : PassOk (p.write off bs) := by
  obtain ⟨hlen, hhead, hplain⟩ := h
  refine ⟨by simp [Pass.write, hlen], by simp [Pass.write, patchAt_take _ _ _ _ ho, hhead], fun hw => ?_⟩
  have hw' : p.written = false ∧ (off < p.tx.length → bs = []) := by simpa [Pass.write] using hw
  show patchAt p.tx off bs = p.rx
  by_cases hin : off < p.tx.length
  · rw [hw'.2 hin, patchAt_nil, hplain hw'.1]
  · rw [patchAt_beyond _ _ _ (by omega), hplain hw'.1]

theorem newPass_ok (s : State) (f : LinkFrame) : PassOk (newPass s f) := ⟨rfl, rfl, fun _ => rfl⟩

/-! ### Requests and the reply queue -/

theorem haltRun_orderly (s : State) : Orderly s (haltRun s) := by
  have hends : Orderly s (runEnds s) :=
    ⟨fun h => ⟨h.1, PortOk.map h.2 _ fun _ => ⟨rfl, rfl, rfl⟩⟩, .inr ⟨rfl, rfl⟩⟩
  exact hends.trans ((haltAllLiveDue_onlyApplied (runEnds s)).trans (onTables_onlyApplied _ dropChanges)).orderly

theorem noteStation_orderly (mask : Byte) (s : State) : Orderly s (noteStation mask s) := by
  obtain ⟨hs, hp⟩ := noteStation_spec mask s
  rw [hs]
  exact ⟨fun h => ⟨hp.portOk h.1, h.2⟩, .refl _⟩

theorem ownCommit_orderly (mask presence : Byte) (effective : BitVec 64) (blend : BitVec 16) (s : State) :
    Orderly s (ownCommit mask presence effective blend s).2 := by
  unfold ownCommit commitActive commitBypass acceptCommit
  simp only
  repeat' split
  all_goals first
    | exact .refl s
    | exact .of_fields rfl rfl rfl
    | exact (applyTables_onlyApplied _ _ s).orderly.trans (noteStation_orderly mask (applyTables _ _ s))

/-- No request's owner sets E or L, or writes into a frame (01 R10, R11). -/
theorem own_orderly (r : Request) (s : State) : Orderly s (own r s).2 := by
  cases r with
  | identify => exact .refl s
  | readStatus => exact .refl s
  | clearFlags m => exact .of_passes rfl rfl (.inl ⟨rfl, rfl⟩)
  | start =>
    show Orderly s (ownStart s).2
    unfold ownStart
    repeat' split
    all_goals first | exact .refl s | exact .of_passes rfl rfl (.inr ⟨rfl, rfl⟩)
  | halt =>
    show Orderly s (ownHalt s).2
    unfold ownHalt
    repeat' split
    all_goals first | exact .refl s | exact haltRun_orderly s
  | group g a => exact (ownGroup_only g a s).orderly
  | readEntry t i c =>
    show Orderly s (ownReadEntry t i c s).2
    unfold ownReadEntry
    simp only
    repeat' split
    all_goals exact .refl s
  | writeEntry t i e => exact (ownWriteEntry_only t i e s).orderly
  | setLive t v => exact (ownSetLive_only t v s).orderly
  | commit m p e b => exact ownCommit_orderly m p e b s
  | cancel m => exact (ownCancel_only m s).orderly
  | lock m md => exact (ownLock_only m md s).orderly
  | freeze => exact (ownFreeze_only s).orderly
  | thaw => exact (ownThaw_only s).orderly
  | traceSet g d e =>
    show Orderly s (ownTraceSet g d e s).2
    rw [ownTraceSet_only]
    exact .of_fields rfl rfl rfl
  | readTrace =>
    show Orderly s (ownReadTrace s).2
    rw [ownReadTrace_only]
    exact .of_fields rfl rfl rfl
  | storeSave =>
    show Orderly s (ownStoreSave s).2
    rw [ownStoreSave_only]
    exact .of_fields rfl rfl rfl
  | restart =>
    show Orderly s (ownRestart s).2
    rw [ownRestart_only]
    exact .of_fields rfl rfl rfl

theorem onSvc_orderly (s : State) (f : Responder → Responder) : Orderly s (s.onSvc f) := .of_fields rfl rfl rfl

theorem serveNow_orderly (r : Request) (s : State) : Orderly s (serveNow r s).2 :=
  (own_orderly r s).trans (.of_fields rfl rfl rfl)

theorem linkRestart_orderly (e : ReplyEntry) (rep : Reply) (s : State) : Orderly s (linkRestart e rep s) := by
  rw [linkRestart_only]
  exact .of_fields rfl rfl rfl

theorem onEntry_orderly (s : State) (id : Nat) (f : ReplyEntry → ReplyEntry) : Orderly s (s.onEntry id f) := onSvc_orderly _ _

theorem serveRow_orderly (r : Request) (s : State) : Orderly s (serveRow r s) := by
  unfold serveRow
  split
  · simp only
    split
    · exact ((serveNow_orderly r s).trans (onEntry_orderly _ _ _)).trans (linkRestart_orderly _ _ _)
    · exact serveNow_orderly r s
  · exact .refl s

theorem answerOf_orderly (e : ReplyEntry) (s : State) : Orderly s (answerOf e s).2 := by
  unfold answerOf
  split
  · exact .refl s
  · split
    · exact (serveNow_orderly _ s).trans (linkRestart_orderly _ _ _)
    · exact .refl s

theorem recordUnanswered_orderly (e : ReplyEntry) (c : ResultCode) (s : State) : Orderly s (recordUnanswered e c s) :=
  .of_passes rfl rfl (.inl ⟨rfl, rfl⟩)

theorem resultPresent_orderly (e : ReplyEntry) (rep : Reply) (s : State) : Orderly s (resultPresent e rep s) := by
  unfold resultPresent
  split
  · exact onEntry_orderly _ _ _
  · simp only
    split
    · exact (onSvc_orderly s _).trans (recordUnanswered_orderly _ _ _)
    · exact onSvc_orderly s _

theorem foldl_orderly {α : Type} (f : State → α → State) (h : ∀ s a, Orderly s (f s a)) (l : List α) (s : State) :
    Orderly s (l.foldl f s) := by
  induction l generalizing s with
  | nil => exact .refl s
  | cons a l ih => exact (h s a).trans (ih _)

/-- A RESTART cuts the passes in progress, and leaves E and L unset (01 R7, R22). -/
theorem restartEffect_orderly (s : State) : Orderly s (restartEffect s) := by
  have hserved : Orderly s (serveOutstanding s) := foldl_orderly _ (fun s e => answerOf_orderly e s) _ s
  exact hserved.trans ⟨fun h => ⟨PortOk.cutPass h.1, PortOk.cutPass h.2⟩, .inr ⟨rfl, rfl⟩⟩

theorem restartEffect_opState (s : State) : (restartEffect s).lpu.opState = .starting := rfl

theorem afterQueue_orderly (s : State) : Orderly s (afterQueue s) := by
  unfold afterQueue
  split
  · exact restartEffect_orderly s
  · exact .refl s

theorem completeService_orderly (n : Nat) (s : State) : Orderly s (completeService n s) := by
  unfold completeService
  split
  · exact ((answerOf_orderly _ s).trans (resultPresent_orderly _ _ _)).trans (afterQueue_orderly _)
  · exact .refl s

theorem removeEntry_orderly (id : Nat) (s : State) : Orderly s (removeEntry id s) := onSvc_orderly s _

theorem orphan_orderly (b : Bool) (e : ReplyEntry) (s : State) : Orderly s (orphan b e s) := onSvc_orderly s _

theorem dropEntry_orderly (e : ReplyEntry) (s : State) : Orderly s (dropEntry e s) := by
  unfold dropEntry
  split
  · exact (removeEntry_orderly _ s).trans (recordUnanswered_orderly _ _ _)
  · exact (removeEntry_orderly _ s).trans (orphan_orderly _ _ _)

theorem dropSilently_orderly (e : ReplyEntry) (s : State) : Orderly s (dropSilently e s) := by
  unfold dropSilently
  split
  · exact removeEntry_orderly _ s
  · exact (removeEntry_orderly _ s).trans (orphan_orderly _ _ _)

theorem matchReturn_orderly (cycle : BitVec 16) (s : State) : Orderly s (matchReturn cycle s).2 := by
  unfold matchReturn
  split
  · exact foldl_orderly _ (fun s e => dropEntry_orderly e s) _ s
  · exact .refl s

theorem takeRequest_orderly (kind : Byte) (len : Nat) (payload : List Byte) (cycle : BitVec 16) (s : State) :
    Orderly s (takeRequest kind len payload cycle s) := by
  have hroom : Orderly s (makeRoom s) := by
    unfold makeRoom
    repeat' split
    all_goals first | exact .refl s | exact dropEntry_orderly _ s
  exact hroom.trans (onSvc_orderly _ _)

/-! ### The line -/

theorem checkBad_orderly (s : State) : Orderly s (checkBad s) := .of_passes rfl rfl (.inl ⟨rfl, rfl⟩)

@[simp] theorem clearBuffers_lpu (s : State) : (clearBuffers s).lpu = s.lpu := rfl

theorem clearBuffers_orderly (s : State) : Orderly s (clearBuffers s) := .of_fields rfl rfl rfl

theorem lineFault_orderly (s : State) : Orderly s (lineFault s) := (lineFault_onlyMotion s).orderly

theorem silenceExpiry_orderly (s : State) : Orderly s (silenceExpiry s) := by
  unfold silenceExpiry
  refine Orderly.trans ?_ (lineFault_orderly _)
  exact .of_passes rfl rfl (.inl ⟨rfl, rfl⟩)

theorem advanceTimers_orderly (dt : Nat) (s : State) : Orderly s (advanceTimers dt s) :=
  .of_passes rfl rfl (.inl ⟨rfl, rfl⟩)

theorem elapse_orderly (inclusive : Bool) (dt : Nat) (s : State) : Orderly s (elapse inclusive dt s) := by
  have hsilent (b : Bool) : Orderly s (if b then silenceExpiry s else s) := by
    split
    · exact silenceExpiry_orderly s
    · exact .refl s
  unfold elapse
  simp only
  split
  · exact restartEffect_orderly s
  · split
    · exact (hsilent _).trans (restartEffect_orderly _)
    · exact (hsilent _).trans (advanceTimers_orderly _ _)

theorem returnHeader_orderly (f : LinkFrame) (s : State) : Orderly s (returnHeader f s) := by
  have hmatch : Orderly s (if (newPass s f).followed then matchReturn (frameCycle f.bytes) s else (none, s)).2 := by
    split
    · exact matchReturn_orderly _ s
    · exact .refl s
  unfold returnHeader
  refine Orderly.trans ?_ (afterQueue_orderly _)
  refine hmatch.trans ⟨fun h => ⟨h.1, fun p hp => ?_⟩, .refl _⟩
  obtain rfl := Option.some.inj hp
  exact newPass_ok s f

/-- A header leaves a pass that forwards what it receives, beside what the other port holds (01 R1). -/
theorem headerArrives_orderly (port : Port) (f : LinkFrame) (s : State) : Orderly s (headerArrives port f s) := by
  unfold headerArrives
  split
  · cases port with
    | m => exact ⟨fun h => ⟨portOk_some.mpr (newPass_ok s f), h.2⟩, .refl _⟩
    | d => exact returnHeader_orderly f s
  · exact .refl s

theorem latchFirst_orderly (s : State) : Orderly s (latchFirst s) := by
  unfold latchFirst
  split
  · rename_i p off hp _
    split
    · exact ⟨fun h => ⟨portOk_some.mpr (h.1 p hp), h.2⟩, .refl _⟩
    · exact .refl s
  · exact .refl s

theorem passOutField_orderly (i : Fin 4) (s : State) : Orderly s (passOutField i s) := by
  unfold passOutField
  split
  · rename_i p off _ hp _
    split
    · exact ⟨fun h => ⟨portOk_some.mpr (PassOk.write (p := { p with latched := _ }) (h.1 p hp) (by simp [slotAreaAt]) _), h.2⟩, .refl _⟩
    · exact .refl s
  · exact .refl s

theorem passInField_orderly (i : Fin 4) (s : State) : Orderly s (passInField i s) := by
  unfold passInField
  repeat' split
  all_goals exact .of_fields rfl rfl rfl

theorem passReport_orderly (s : State) : Orderly s (passReport s) := by
  unfold passReport
  split
  · rename_i p off _ hp _ _
    split
    · exact ⟨fun h => ⟨h.1, portOk_some.mpr ((h.2 p hp).write (by simp [slotAreaAt]) _)⟩, .refl _⟩
    · exact .refl s
  · exact .refl s

/-- A reply is written behind the header (10 R165). -/
theorem answerFrame_orderly {p : Pass} (e : ReplyEntry) {s : State} (hp : s.retPass = some p) : Orderly s (answerFrame p e s) := by
  unfold answerFrame
  split
  · refine (removeEntry_orderly e.id s).trans ⟨fun h => ⟨h.1, portOk_some.mpr ?_⟩, .refl _⟩
    exact PassOk.write (p := { p with matched := none }) (h.2 p hp) (by simp [serviceAt, slotAreaAt]; omega) _
  · refine ⟨fun h => ⟨((dropEntry_orderly e s).passes h).1, portOk_some.mpr (h.2 p hp)⟩, (dropEntry_orderly e s).cycle⟩

theorem passService_orderly (s : State) : Orderly s (passService s) := by
  unfold passService
  split
  · rename_i p hp
    repeat' split
    all_goals first | exact .refl s | exact (answerFrame_orderly _ hp).trans (afterQueue_orderly _)
  · exact .refl s

/-- A pass that has left its port is one no longer. -/
theorem outSent_orderly (s : State) (x : Option SentFrame) : Orderly s { s with outPass := none, sentD := x } :=
  ⟨fun h => ⟨portOk_none, h.2⟩, .refl _⟩

theorem returnSent_orderly (s : State) (x : Option SentFrame) : Orderly s { s with retPass := none, sentM := x } :=
  ⟨fun h => ⟨h.1, portOk_none⟩, .refl _⟩

theorem closeOut_orderly (s : State) : Orderly s (closeOut s) := by
  have htake (p : Pass) (u : State) : Orderly u (takeFromFrame p u) := by
    unfold takeFromFrame
    split
    · exact takeRequest_orderly _ _ _ _ u
    · exact .refl u
  unfold closeOut
  split
  · split
    · simp only
      split
      · exact outSent_orderly s _
      · split
        · exact ((outSent_orderly s _).trans (htake _ _)).trans (afterQueue_orderly _)
        · exact (outSent_orderly s _).trans (checkBad_orderly _)
    · exact .refl s
  · exact .refl s

theorem cutCheck_orderly (p : Pass) (s : State) : Orderly s (cutCheck p s) := by
  unfold cutCheck
  split
  · exact .refl s
  · exact checkBad_orderly s

theorem cutReply_orderly (p : Pass) (s : State) : Orderly s (cutReply p s) := by
  unfold cutReply
  repeat' split
  all_goals first | exact .refl s | exact dropSilently_orderly _ s

theorem cutShort_orderly (port : Port) (s : State) : Orderly s (cutShort port s) := by
  unfold cutShort
  cases port with
  | m =>
    simp only
    split
    · split
      · exact (outSent_orderly s _).trans (cutCheck_orderly _ _)
      · exact .refl s
    · exact .refl s
  | d =>
    simp only
    split
    · split
      · exact ((((returnSent_orderly s _).trans (cutCheck_orderly _ _)).trans (cutReply_orderly _ _)).trans
          (clearBuffers_orderly _)).trans (afterQueue_orderly _)
      · exact .refl s
    · exact .refl s

/-! ### Acceptance -/

/-- What a command can do to E and L: keep them or unset them, or, at an acceptance, set both, to an E that L follows where it did before
and that is not below the E before (01 R14, R15, R16). -/
def CycleMoves (x y : Lpu) : Prop :=
  CycleKept x y
    ∨ ∃ e c, y.ext = some e ∧ y.last = some c ∧ (x.last = x.ext.map (BitVec.ofNat 16) → BitVec.ofNat 16 e = c)
        ∧ ∀ d, x.ext = some d → d ≤ e

/-- A cycle number is the one before it plus the gap between them (01 R14). -/
theorem ofNat_add_gap (e : Nat) (c : BitVec 16) : BitVec.ofNat 16 (e + (c - BitVec.ofNat 16 e).toNat) = c := by
  rw [BitVec.ofNat_add, BitVec.ofNat_toNat, BitVec.setWidth_eq, BitVec.add_comm, BitVec.sub_add_cancel]

/-- A resync of gap 0 advances E by a whole turn, which L does not tell (01 R15). -/
theorem ofNat_add_turn (e n : Nat) : BitVec.ofNat 16 (e + (if n = 0 then 65536 else n)) = BitVec.ofNat 16 (e + n) := by
  split
  · rename_i h
    subst h
    apply BitVec.eq_of_toNat_eq
    simp
  · rfl

theorem acceptedCycle_lpu (order : List (Fin 4)) (e k : Nat) (resync : Bool) (s : State) :
    (acceptedCycle order e k resync s).lpu = s.lpu := (acceptedCycle_only order e k resync s).fields.2.2.2.1

theorem acceptedCycle_orderly (order : List (Fin 4)) (e k : Nat) (resync : Bool) (s : State) :
    Orderly s (acceptedCycle order e k resync s) := by
  obtain ⟨-, -, -, hlpu, hout, hret, -⟩ := (acceptedCycle_only order e k resync s).fields
  exact .of_fields hout hret hlpu

theorem lineFault_lpu (s : State) : (lineFault s).lpu = s.lpu := (lineFault_onlyMotion s).fields.2.2.2.1

/-- Where L follows E, the gap of a frame brings E to the frame's cycle number (01 R14, R16). -/
theorem ofNat_add_gapOf {s : State} {e : Nat} (he : s.lpu.ext = some e) (hok : s.lpu.last = s.lpu.ext.map (BitVec.ofNat 16))
    (cycle : BitVec 16) : BitVec.ofNat 16 (e + gapOf s cycle) = cycle := by
  have hl : s.lpu.last.getD 0 = BitVec.ofNat 16 e := by rw [hok, he]; rfl
  unfold gapOf
  rw [hl]
  exact ofNat_add_gap e cycle

theorem acceptOrdinary_moves (order : List (Fin 4)) {e : Nat} (cycle : BitVec 16) {s : State} (he : s.lpu.ext = some e) :
    CycleMoves s.lpu (acceptOrdinary order e (gapOf s cycle) cycle s).lpu := by
  unfold acceptOrdinary
  rw [acceptedCycle_lpu]
  refine .inr ⟨_, _, rfl, rfl, fun hok => ofNat_add_gapOf he hok cycle, fun d hd => ?_⟩
  obtain rfl : e = d := Option.some.inj (he.symm.trans hd)
  exact Nat.le_add_right _ _

theorem acceptResync_moves (order : List (Fin 4)) {e : Nat} (cycle : BitVec 16) {s : State} (he : s.lpu.ext = some e) :
    CycleMoves s.lpu (acceptResync order e (gapOf s cycle) cycle s).lpu := by
  unfold acceptResync
  simp only
  rw [acceptedCycle_lpu]
  refine .inr ⟨_, _, rfl, rfl, fun hok => (ofNat_add_turn _ _).trans (ofNat_add_gapOf he hok cycle), fun d hd => ?_⟩
  obtain rfl : e = d := Option.some.inj (he.symm.trans hd)
  exact Nat.le_add_right _ _

/-- Every classification moves E and L as R14, R15 and R16 give. -/
theorem classify_moves (order : List (Fin 4)) (cycle : BitVec 16) (s : State) : CycleMoves s.lpu (classify order cycle s).lpu := by
  unfold classify
  split
  · rename_i hnone
    unfold acceptFirst
    rw [acceptedCycle_lpu]
    exact .inr ⟨_, _, rfl, rfl, fun _ => by simp, fun d hd => by simp [hnone] at hd⟩
  · rename_i e he
    simp only
    split
    · exact acceptResync_moves order cycle he
    · split
      · exact .inl (.inl ⟨rfl, rfl⟩)
      · split
        · exact acceptOrdinary_moves order cycle he
        · exact acceptResync_moves order cycle he

theorem onLpu_passes {s : State} (h : PassesOk s) (f : Lpu → Lpu) : PassesOk (s.onLpu f) := h

theorem acceptResync_passes (order : List (Fin 4)) (e gap : Nat) (cycle : BitVec 16) {s : State} (h : PassesOk s) :
    PassesOk (acceptResync order e gap cycle s) := by
  unfold acceptResync
  refine (acceptedCycle_orderly order _ _ _ _).passes (onLpu_passes ?_ _)
  exact (lineFault_orderly _).passes (onLpu_passes h _)

theorem classify_passes (order : List (Fin 4)) (cycle : BitVec 16) {s : State} (h : PassesOk s) : PassesOk (classify order cycle s) := by
  unfold classify
  split
  · exact (acceptedCycle_orderly order _ _ _ _).passes (onLpu_passes h _)
  · simp only
    split
    · exact acceptResync_passes order _ _ cycle h
    · split
      · exact h
      · split
        · exact (acceptedCycle_orderly order _ _ _ _).passes (onLpu_passes (onLpu_passes h _) _)
        · exact acceptResync_passes order _ _ cycle h

/-- Time that passes leaves the part in STARTING, by a RESTART, or E, L and the operating state as they were (01 R18, 12 R185). -/
theorem elapse_lpu (inclusive : Bool) (dt : Nat) (s : State) :
    (elapse inclusive dt s).lpu.opState = .starting
      ∨ ((elapse inclusive dt s).lpu.ext = s.lpu.ext ∧ (elapse inclusive dt s).lpu.last = s.lpu.last
          ∧ (elapse inclusive dt s).lpu.opState = s.lpu.opState) := by
  unfold elapse
  simp only
  split
  · exact .inl rfl
  · split
    · exact .inl rfl
    · right
      split
      · simp [advanceTimers, silenceExpiry, lineFault_lpu]
      · exact ⟨rfl, rfl, rfl⟩

/-- A good return frame that finds the part outside ACTIVE is not classified (01 R12, R14). -/
theorem goodReturn_cycle_of_not_active (order : List (Fin 4)) (p : Pass) {s : State} (h : s.lpu.opState ≠ .active) :
    CycleKept s.lpu (goodReturn order p s).lpu := by
  unfold goodReturn mayAccept
  split
  · exact .inl ⟨rfl, rfl⟩
  · simp only [h, decide_false, Bool.and_false, Bool.false_eq_true, if_false]
    exact .refl _

theorem goodReturn_moves (order : List (Fin 4)) (p : Pass) (s : State) : CycleMoves s.lpu (goodReturn order p s).lpu := by
  unfold goodReturn
  split
  · exact .inl (.inl ⟨rfl, rfl⟩)
  · split
    · exact classify_moves order _ s
    · exact .inl (.refl _)

theorem goodReturn_passes (order : List (Fin 4)) (p : Pass) {s : State} (h : PassesOk s) : PassesOk (goodReturn order p s) := by
  unfold goodReturn
  split
  · exact h
  · split
    · exact classify_passes order _ h
    · exact h

/-- The check word of a return frame moves E and L as a classification does, after the time that has passed (01 R14, R16). -/
theorem closeReturn_moves (dt : Nat) (order : List (Fin 4)) (s : State) : CycleMoves s.lpu (closeReturn dt order s).lpu := by
  have helapsed := (elapse_orderly false dt s).cycle
  have hlpu := elapse_lpu false dt s
  unfold closeReturn
  simp only
  generalize elapse false dt s = u at *
  split
  · rename_i p _
    split
    · split
      · exact .inl helapsed
      · split
        · rcases hlpu with hstart | ⟨he, hl, -⟩
          · have hkept := goodReturn_cycle_of_not_active order p (s := { u with retPass := none, sentM := some (sentFrame p) })
              (by simp [hstart])
            rw [clearBuffers_lpu]
            exact .inl (helapsed.trans hkept)
          · have hmoves := goodReturn_moves order p { u with retPass := none, sentM := some (sentFrame p) }
            unfold CycleMoves CycleKept at hmoves ⊢
            rw [clearBuffers_lpu, ← he, ← hl]
            exact hmoves
        · exact .inl (helapsed.trans (.inl ⟨rfl, rfl⟩))
    · exact .inl (.refl _)
  · exact .inl (.refl _)

theorem closeReturn_passes (dt : Nat) (order : List (Fin 4)) {s : State} (h : PassesOk s) : PassesOk (closeReturn dt order s) := by
  have helapsed := (elapse_orderly false dt s).passes h
  unfold closeReturn
  simp only
  generalize elapse false dt s = u at *
  split
  · rename_i p _
    have hsent := (returnSent_orderly u (some (sentFrame p))).passes helapsed
    split
    · split
      · exact hsent
      · split
        · exact goodReturn_passes order _ hsent
        · exact hsent
    · exact h
  · exact h

/-! ### Every command -/

theorem assertReset_orderly (a b : Nat) (s : State) : Orderly s (assertReset a b s) := by
  unfold assertReset
  split
  · exact .refl s
  · split
    · exact .of_reset rfl rfl rfl rfl
    · exact .of_fields rfl rfl rfl

theorem loadComplete_orderly (s : State) : Orderly s (loadComplete s) := by
  unfold loadComplete completeLoad withFreezeEntry loadTables
  simp only
  repeat' split
  all_goals first | exact .refl s | exact .of_passes rfl rfl (.inl ⟨rfl, rfl⟩)

theorem stageExpires_onlyMotion (i : Fin 4) (s : State) : OnlyMotion s (stageExpires i s) := by
  unfold stageExpires
  split
  · exact (onRoller_onlyMotion s i _).trans (hardFaultEvent_onlyMotion i _)
  · exact .refl s

theorem loadBlendEnds_onlyMotion (g : Fin 4) (s : State) : OnlyMotion s (loadBlendEnds g s) := by
  unfold loadBlendEnds
  split <;> rfl

theorem settleExpires_onlyMotion (g : Fin 4) (s : State) : OnlyMotion s (settleExpires g s) := by
  unfold settleExpires
  split
  · exact settleExpiry_onlyMotion g s
  · exact .refl s

theorem trackBlendIn_onlyMotion (g : Fin 4) (s : State) : OnlyMotion s (trackBlendIn g s) := by
  unfold trackBlendIn
  split <;> rfl

theorem trackBlendOut_onlyMotion (g : Fin 4) (s : State) : OnlyMotion s (trackBlendOut g s) := by
  unfold trackBlendOut
  split
  · exact endTrack_onlyMotion g s
  · exact .refl s

theorem traceAppends_orderly (s : State) : Orderly s (traceAppends s) := by
  unfold traceAppends
  split <;> exact .of_fields rfl rfl rfl

theorem silenceEnds_orderly (s : State) : Orderly s (silenceEnds s) := by
  unfold silenceEnds
  split
  · exact elapse_orderly _ _ s
  · exact .refl s

theorem restartWaitEnds_orderly (s : State) : Orderly s (restartWaitEnds s) := by
  unfold restartWaitEnds
  split
  · exact elapse_orderly _ _ s
  · exact .refl s

theorem certAssert_orderly (s : State) : Orderly s (withFreezeEntry s { s with cert := true }) := by
  unfold withFreezeEntry
  split <;> exact .of_fields rfl rfl rfl

theorem saveDone_orderly (v : Bool) (s : State) : Orderly s (saveDone v s) := by
  unfold saveDone
  repeat' split
  all_goals exact .of_fields rfl rfl rfl

/-- Every command answers a next state. All but RETURN_CHECK_WORD leave the frames in passage forwarding as they must, and E and L as they
were or unset. -/
theorem exec_orderly (c : Instr) (s : State) :
    ∃ t, exec c s = .next t ∧ (Orderly s t ∨ ∃ dt order, t = closeReturn dt order s) := by
  cases c with
  | returnCheckWord dt order => exact ⟨_, rfl, .inr ⟨dt, order, rfl⟩⟩
  | powerUp => exact ⟨_, rfl, .inl (.of_reset rfl rfl rfl rfl)⟩
  | powerDown => exact ⟨_, rfl, .inl (.of_reset rfl rfl rfl rfl)⟩
  | resetAssert a b => exact ⟨_, rfl, .inl (assertReset_orderly a b s)⟩
  | resetRelease => exact ⟨_, rfl, .inl (.of_fields rfl rfl rfl)⟩
  | storeLoadComplete => exact ⟨_, rfl, .inl (loadComplete_orderly s)⟩
  | passHeader port f => exact ⟨_, rfl, .inl (headerArrives_orderly port f s)⟩
  | frameCutShort port => exact ⟨_, rfl, .inl (cutShort_orderly port s)⟩
  | firstOutField => exact ⟨_, rfl, .inl (latchFirst_orderly s)⟩
  | outFieldPassage i => exact ⟨_, rfl, .inl (passOutField_orderly i s)⟩
  | inFieldPassage i => exact ⟨_, rfl, .inl (passInField_orderly i s)⟩
  | reportFieldArrival => exact ⟨_, rfl, .inl (passReport_orderly s)⟩
  | serviceAreaReturn => exact ⟨_, rfl, .inl (passService_orderly s)⟩
  | outboundCheckWord => exact ⟨_, rfl, .inl (closeOut_orderly s)⟩
  | serviceComplete n => exact ⟨_, rfl, .inl (completeService_orderly n s)⟩
  | stageTimerExpiry i => exact ⟨_, rfl, .inl (stageExpires_onlyMotion i s).orderly⟩
  | loadBlendEnd g => exact ⟨_, rfl, .inl (loadBlendEnds_onlyMotion g s).orderly⟩
  | settleTimerExpiry g => exact ⟨_, rfl, .inl (settleExpires_onlyMotion g s).orderly⟩
  | trackBlendInEnd g => exact ⟨_, rfl, .inl (trackBlendIn_onlyMotion g s).orderly⟩
  | trackBlendOutEnd g => exact ⟨_, rfl, .inl (trackBlendOut_onlyMotion g s).orderly⟩
  | traceRecordAppend => exact ⟨_, rfl, .inl (traceAppends_orderly s)⟩
  | lineSilenceExpiry => exact ⟨_, rfl, .inl (silenceEnds_orderly s)⟩
  | certAssert => exact ⟨_, rfl, .inl (certAssert_orderly s)⟩
  | certRelease => exact ⟨_, rfl, .inl (.of_fields rfl rfl rfl)⟩
  | saveComplete v => exact ⟨_, rfl, .inl (saveDone_orderly v s)⟩
  | restartEffect => exact ⟨_, rfl, .inl (restartWaitEnds_orderly s)⟩
  | _ => exact ⟨_, exec_request rfl s, .inl (serveRow_orderly _ s)⟩

/-- A step runs a command, or lets one microsecond pass. -/
theorem step_orderly {s t : State} (h : step s = .next t) :
    Orderly s t ∨ ∃ c rest dt order, s.pending = c :: rest ∧ t = closeReturn dt order { s with pending := rest } := by
  unfold step at h
  split at h
  · rename_i c rest hp
    obtain ⟨u, hu, hcases⟩ := exec_orderly c { s with pending := rest }
    obtain rfl : u = t := Host.Outcome.next.inj (hu.symm.trans h)
    rcases hcases with ho | ⟨dt, order, rfl⟩
    · exact .inl ⟨ho.passes, ho.cycle⟩
    · exact .inr ⟨c, rest, dt, order, hp, rfl⟩
  · obtain rfl := Host.Outcome.next.inj h
    exact .inl (elapse_orderly true 1 s)

/-- What a step can do to E and L (01 R16). -/
theorem step_moves {s t : State} (h : step s = .next t) : CycleMoves s.lpu t.lpu := by
  rcases step_orderly h with ho | ⟨-, rest, dt, order, -, rfl⟩
  · exact .inl ho.cycle
  · exact closeReturn_moves dt order { s with pending := rest }

theorem step_passes {s t : State} (hs : PassesOk s) (h : step s = .next t) : PassesOk t := by
  rcases step_orderly h with ho | ⟨-, rest, dt, order, -, rfl⟩
  · exact ho.passes hs
  · exact closeReturn_passes dt order (s := { s with pending := rest }) hs

/-- Where L followed E before a move, it follows E after it (01 R16). -/
theorem CycleMoves.last_follows {x y : Lpu} (h : CycleMoves x y) (hx : x.last = x.ext.map (BitVec.ofNat 16)) :
    y.last = y.ext.map (BitVec.ofNat 16) := by
  rcases h with (⟨he, hl⟩ | ⟨he, hl⟩) | ⟨e, c, he, hl, hfollow, -⟩
  · rw [he, hl, hx]
  · simp [he, hl]
  · simp [he, hl, hfollow hx]

/-- A move never lowers E (01 R16). -/
theorem CycleMoves.le {x y : Lpu} (h : CycleMoves x y) {e f : Nat} (he : x.ext = some e) (hf : y.ext = some f) : e ≤ f := by
  rcases h with (⟨hk, -⟩ | ⟨hk, -⟩) | ⟨d, c, hd, -, -, hle⟩
  · simp_all
  · simp_all
  · obtain rfl : d = f := Option.some.inj (hd.symm.trans hf)
    exact hle e he

/-- Settles O27: a step keeps, unsets or accepts E and L (`step_moves`), and each of these keeps L after E and E from falling. -/
theorem cycleNumberKeptAndRising : Obligations.CycleNumberKeptAndRising :=
  ⟨fun _ _ hok h => (step_moves h).last_follows hok, fun _ _ _ _ he _ hf h => (step_moves h).le he hf⟩

/-- Settles O19, command by command: a new pass forwards what it receives, and every write lies behind the header (`PassOk.write`). -/
theorem passesKeptByEveryStep : Obligations.PassesKeptByEveryStep := fun _ _ hs h => step_passes hs h

end Sys2Proof.Machine
end

section
/-! SUPPORT. Reset events and the line silence: power, the RESET line, what the part holds under it (01 R7, R9, R22), the line fault event (07
R127), and time that passes (01 R18; log 7). -/

namespace Sys2Proof.Machine

open Sys2Proof.Laws

/-! ### The state after power-up -/

theorem reset_roller (i : Fin 4) : State.reset.rollers.get i = Roller.initial RollerFlags.none := Quad.get_all _ i

theorem reset_group (g : Fin 4) : State.reset.groups.get g = Group.initial GroupFlags.none := Quad.get_all _ g

theorem reset_ctl (t : Table) : State.reset.tables.ctl.get t = TableCtl.initial := Five.get_all _ t

/-- Settles O3, block by block from the model's initial values. -/
theorem resetHoldsPowerUpValues : Obligations.ResetHoldsPowerUpValues := by
  refine ⟨rfl, rfl, fun i => ?_, fun i => ?_, fun i => ?_, fun i => ?_, fun g => ?_, fun t => ?_, ?_⟩
  · rw [reset_roller]; rfl
  · rw [reset_roller]; rfl
  · rw [reset_roller]; rfl
  · rw [reset_roller]; rfl
  · rw [reset_group]
    exact ⟨rfl, rfl, rfl, rfl, rfl, rfl, rfl, rfl, rfl, rfl⟩
  · rw [reset_ctl]; rfl
  · decide

/-- The RESET-line values hold after power-up. -/
theorem reset_resetHeld : ResetHeld State.reset := by
  refine ⟨rfl, rfl, rfl, rfl, rfl, rfl, rfl, rfl, fun t => ?_, rfl, rfl, rfl, rfl, rfl, rfl, rfl, rfl, ?_, ?_⟩
  · rw [reset_ctl]; exact ⟨rfl, rfl⟩
  · intro p hp; cases hp
  · intro p hp; cases hp

theorem reset_traceOk : TraceOk State.reset := by
  refine ⟨by decide, by decide, by decide, by decide, by decide, by decide, .nil, fun _ _ => rfl, ?_⟩
  intro e he
  cases he

/-- Settles O4: each of the nine properties at the one state after power-up. -/
theorem invariantsHoldAtReset : Obligations.InvariantsHoldAtReset := by
  refine ⟨rfl, fun i => ?_, ⟨fun i => ?_, ?_⟩, ⟨by decide, .nil, .nil, fun t => ?_⟩, ?_, reset_traceOk, Nat.zero_le _,
    ⟨portOk_none, portOk_none⟩, reset_resetHeld⟩
  · rw [reset_roller]; decide
  · rw [show State.reset.slot.current.get i = Command.clear from Quad.get_all _ i]
    exact id
  · intro p x hp
    cases hp
  · rw [reset_ctl]; rfl
  · intro hfreeze
    cases hfreeze

/-- Power that comes or goes leaves the power-up values beside the pins, the image, the frames sent, the model's numbers and the queue (01
R22, 12 R180; log 19). -/
theorem volatileLost_eq (b : Bool) (s : State) :
    { volatileLost s with powered := b } = { State.reset with
      powered := b, resetLine := s.resetLine, cert := s.cert, sentD := s.sentD, sentM := s.sentM
      svc := { State.reset.svc with nextId := s.svc.nextId, lastReply := s.svc.lastReply }
      store := { State.reset.store with image := s.store.image }, pending := s.pending } := rfl

/-- Settles O5, from `volatileLost_eq`. -/
theorem powerGivesPowerUpValues : Obligations.PowerGivesPowerUpValues := by
  intro s
  exact ⟨congrArg Host.Outcome.next (volatileLost_eq true s), congrArg Host.Outcome.next (volatileLost_eq false s)⟩

/-! ### The RESET line -/

/-- The values of a reset event that keeps nothing are the RESET-line values, once no pass is in progress. -/
theorem ResetHeld.of_resetValues {s t : State} (h : t = { resetValues false s with
      resetLine := t.resetLine, powered := t.powered, outPass := none, retPass := none, sentD := t.sentD, sentM := t.sentM
      tables := { (resetValues false s).tables with staging := t.tables.staging, active := t.tables.active, ctl := t.tables.ctl } })
    (hctl : ∀ tb, (t.tables.ctl.get tb).live = false ∧ (t.tables.ctl.get tb).pinned = false) : ResetHeld t := by
  rw [h] at hctl ⊢
  refine ⟨rfl, rfl, rfl, rfl, rfl, rfl, rfl, rfl, hctl, rfl, rfl, rfl, rfl, rfl, rfl, rfl, rfl, ?_, ?_⟩
  · intro p hp; cases hp
  · intro p hp; cases hp

theorem resetValues_ctl (s : State) (keep : Bool) (tb : Table) :
    (resetValues keep s).tables.ctl.get tb = { s.tables.ctl.get tb with live := false, pinned := false } := Five.get_mapT _ _ tb

theorem volatileLost_resetHeld (s : State) (b : Bool) : ResetHeld { volatileLost s with powered := b } := by
  refine .of_resetValues (s := s) rfl fun tb => ?_
  rw [show (volatileLost s).tables.ctl = State.reset.tables.ctl from congrArg (·.tables.ctl) (volatileLost_eq b s), reset_ctl]
  exact ⟨rfl, rfl⟩

/-- RESET asserted on a part with power (01 R9). -/
theorem assertReset_eq (a b : Nat) {s : State} (hp : s.powered = true) (hr : s.resetLine = false) :
    assertReset a b s = { resetValues false s with
      resetLine := true, outPass := none, retPass := none
      sentD := (leaving s.outPass s.sentD).map (SentFrame.abortAt a)
      sentM := (leaving s.retPass s.sentM).map (SentFrame.abortAt b) } := by
  simp [assertReset, hp, hr]

/-- Settles O6, from the three branches of the assertion: a line already asserted, a part without power, and the reset event. -/
theorem resetAssertGivesResetValues : Obligations.ResetAssertGivesResetValues := by
  intro a b s
  refine ⟨fun hp hr => ⟨_, congrArg Host.Outcome.next (assertReset_eq a b hp hr), ?_⟩, fun hp hr => ?_, fun hr => ?_⟩
  · refine ⟨?_, rfl, hp, rfl, rfl, rfl, fun p h => ?_, fun p h => ?_, fun h => ?_, fun h => ?_, fun tb => ?_, rfl, rfl, rfl, rfl⟩
    · refine .of_resetValues (s := s) rfl fun tb => ?_
      simp [resetValues_ctl]
    · simp only [h]; rfl
    · simp only [h]; rfl
    · simp only [h]; rfl
    · simp only [h]; rfl
    · simp only [resetValues_ctl]
  · show Host.Outcome.next (assertReset a b s) = _
    simp [assertReset, hp, hr]
  · show Host.Outcome.next (assertReset a b s) = _
    simp [assertReset, hr]

/-! ### What the part does with the RESET line asserted -/

theorem ResetHeld.lpu_eq {s : State} (h : ResetHeld s) : s.lpu = Lpu.initial LineFlags.none 0 0 := h.1

theorem ResetHeld.slot_eq {s : State} (h : ResetHeld s) : s.slot = SlotEngine.initial := h.2.1

theorem ResetHeld.service {s : State} (h : ResetHeld s) : s.svc.queue = [] ∧ s.svc.orphans = [] := by
  obtain ⟨-, -, -, -, -, -, -, -, -, hq, ho, -⟩ := h
  exact ⟨hq, ho⟩

theorem ResetHeld.store {s : State} (h : ResetHeld s) : s.store.state = .idle ∧ s.store.restart = none := by
  obtain ⟨-, -, -, -, -, -, -, -, -, -, -, -, -, hst, -, -, hre, -, -⟩ := h
  exact ⟨hst, hre⟩

theorem ResetHeld.unfollowed {s : State} (h : ResetHeld s) :
    (∀ p, s.outPass = some p → p.followed = false) ∧ ∀ p, s.retPass = some p → p.followed = false := by
  obtain ⟨-, -, -, -, -, -, -, -, -, -, -, -, -, -, -, -, -, hout, hret⟩ := h
  exact ⟨hout, hret⟩

/-- The RESET-line values with other passes, frames sent and pins. -/
theorem ResetHeld.withPasses {s : State} (h : ResetHeld s) {o r : Option Pass} (ho : ∀ p, o = some p → p.followed = false)
    (hr : ∀ p, r = some p → p.followed = false) (x y : Option SentFrame) :
    ResetHeld { s with outPass := o, retPass := r, sentD := x, sentM := y } := by
  obtain ⟨h1, h2, h3, h4, h5, h6, h7, h8, h9, h10, h11, h12, h13, h14, h15, h16, h17, -, -⟩ := h
  exact ⟨h1, h2, h3, h4, h5, h6, h7, h8, h9, h10, h11, h12, h13, h14, h15, h16, h17, ho, hr⟩

/-- No entry is held, so no RESTART is due. -/
theorem restartDue_of_none {s : State} (h : s.store.restart = none) : restartDue s = false := by
  simp [restartDue, h]

theorem afterQueue_of_not_due {s : State} (h : restartDue s = false) : afterQueue s = s := by
  simp [afterQueue, h]

theorem slotWork_of_unfollowed {p : Pass} (h : p.followed = false) : p.slotWork = false := by
  unfold Pass.followed at h
  unfold Pass.slotWork
  split at h <;> simp_all

/-- Under RESET every frame is fixed as one the part does not follow (01 R9). -/
theorem newPass_unfollowed {s : State} (f : LinkFrame)
    (h : isCycleFrame f.bytes = false ∨ s.resetLine = true ∨ s.lpu.opState = .starting) : (newPass s f).followed = false := by
  unfold Pass.followed newPass modeOf
  rcases h with h | h | h
  · simp [h]
  · cases isCycleFrame f.bytes <;> simp [h]
  · cases isCycleFrame f.bytes <;> cases s.resetLine <;> simp [h]

/-- The header of a frame the part does not follow (01 R1, R2, R7, R9). -/
theorem returnHeader_of_unfollowed {s : State} (f : LinkFrame) (hf : (newPass s f).followed = false) (hd : restartDue s = false) :
    returnHeader f s = { s with
      retPass := some (newPass s f), sentM := some { bytes := f.bytes, aborted := false }
      slot := { s.slot with buffers := Quad.all none } } := by
  unfold returnHeader
  simp only [hf, sentUnfollowed, Bool.false_eq_true, if_false]
  exact afterQueue_of_not_due hd

theorem outHeader_of_unfollowed {s : State} (f : LinkFrame) (hf : (newPass s f).followed = false) :
    outHeader f s = { s with outPass := some (newPass s f), sentD := some { bytes := f.bytes, aborted := false } } := by
  unfold outHeader
  simp only [hf, sentUnfollowed, Bool.false_eq_true, if_false]
  rfl

/-- Time that passes while no timer runs moves nothing but the ages of the entries. -/
theorem ResetHeld.elapse_eq {s : State} (h : ResetHeld s) (inclusive : Bool) (dt : Nat) :
    elapse inclusive dt s = advanceTimers dt s := by
  have hs : silenceLeft s = none := by simp [silenceLeft, h.lpu_eq, Lpu.initial]
  have hr : restartLeft s = none := by simp [restartLeft, h.store.2]
  simp [elapse, hs, hr, within]

theorem ResetHeld.advance {s : State} (h : ResetHeld s) (dt : Nat) : ResetHeld (advanceTimers dt s) := by
  obtain ⟨h1, h2, h3, h4, h5, h6, h7, h8, h9, h10, h11, h12, h13, h14, h15, h16, h17, h18, h19⟩ := h
  refine ⟨?_, h2, h3, h4, h5, h6, h7, h8, h9, ?_, ?_, h12, h13, h14, h15, h16, ?_, h18, h19⟩
  · simp [advanceTimers, h1, Lpu.initial]
  · simp [advanceTimers, ageEntries, h10]
  · simp [advanceTimers, ageEntries, h11]
  · simp [advanceTimers, h17]

theorem ResetHeld.inRun {s : State} (h : ResetHeld s) : inRun s = false := by
  simp [Machine.inRun, h.lpu_eq, Lpu.initial]

theorem ResetHeld.offsets {s : State} (h : ResetHeld s) (i : Fin 4) : offsetsOf s i = none := by
  simp [offsetsOf, h.slot_eq, SlotEngine.initial]

theorem ResetHeld.header {s : State} (h : ResetHeld s) (hr : s.resetLine = true) (port : Port) (f : LinkFrame) :
    ResetHeld (headerArrives port f s) := by
  have hnew := newPass_unfollowed f (.inr (.inl hr))
  have hthis (p : Pass) (hp : some (newPass s f) = some p) : p.followed = false := Option.some.inj hp ▸ hnew
  unfold headerArrives
  split
  · cases port with
    | m =>
      simp only [outHeader_of_unfollowed f hnew]
      exact h.withPasses hthis h.unfollowed.2 _ _
    | d =>
      simp only [returnHeader_of_unfollowed f hnew (restartDue_of_none h.store.2)]
      have hslot : { s.slot with buffers := Quad.all none } = s.slot := by rw [h.slot_eq]; rfl
      rw [hslot]
      exact h.withPasses h.unfollowed.1 hthis _ _
  · exact h

theorem ResetHeld.cutShort_eq {s : State} (h : ResetHeld s) (port : Port) : cutShort port s = s := by
  obtain ⟨hout, hret⟩ := h.unfollowed
  unfold cutShort
  cases port with
  | m => cases ho : s.outPass with
    | none => rfl
    | some p => simp [hout p ho]
  | d => cases hr : s.retPass with
    | none => rfl
    | some p => simp [hret p hr]

theorem ResetHeld.firstOut {s : State} (h : ResetHeld s) : firstOut s = none := by
  simp [Machine.firstOut, h.offsets]

theorem ResetHeld.latchFirst_eq {s : State} (h : ResetHeld s) : latchFirst s = s := by
  unfold latchFirst
  rw [h.firstOut]
  cases s.outPass <;> rfl

theorem ResetHeld.passOutField_eq {s : State} (h : ResetHeld s) (i : Fin 4) : passOutField i s = s := by
  unfold passOutField
  rw [h.offsets]
  cases s.outPass <;> rfl

theorem ResetHeld.passInField_eq {s : State} (h : ResetHeld s) (i : Fin 4) : passInField i s = s := by
  unfold passInField
  rw [h.offsets]
  cases s.retPass <;> rfl

theorem ResetHeld.passReport_eq {s : State} (h : ResetHeld s) : passReport s = s := by
  unfold passReport reportAt
  rw [h.slot_eq]
  cases s.retPass <;> rfl

theorem ResetHeld.passService_eq {s : State} (h : ResetHeld s) : passService s = s := by
  unfold passService
  cases hr : s.retPass with
  | none => rfl
  | some p => simp [h.unfollowed.2 p hr]

theorem ResetHeld.closeOut_eq {s : State} (h : ResetHeld s) : closeOut s = s := by
  unfold closeOut
  cases ho : s.outPass with
  | none => rfl
  | some p => simp [h.unfollowed.1 p ho]

theorem ResetHeld.closeReturn_eq {s : State} (h : ResetHeld s) (dt : Nat) (order : List (Fin 4)) : closeReturn dt order s = s := by
  unfold closeReturn
  simp only [h.elapse_eq]
  rw [show (advanceTimers dt s).retPass = s.retPass from rfl]
  cases hr : s.retPass with
  | none => rfl
  | some p => simp [h.unfollowed.2 p hr]

theorem ResetHeld.completeService_eq {s : State} (h : ResetHeld s) (n : Nat) : completeService n s = s := by
  obtain ⟨hq, ho⟩ := h.service
  simp [completeService, awaiting, hq, ho]

theorem ResetHeld.traceAppends_eq {s : State} (h : ResetHeld s) : traceAppends s = s := by
  simp [traceAppends, traceDue, h.lpu_eq, Lpu.initial]

theorem ResetHeld.silenceEnds_eq {s : State} (h : ResetHeld s) : silenceEnds s = s := by
  simp [silenceEnds, silenceLeft, h.lpu_eq, Lpu.initial]

theorem ResetHeld.restartWaitEnds_eq {s : State} (h : ResetHeld s) : restartWaitEnds s = s := by
  simp [restartWaitEnds, restartLeft, h.store.2]

theorem ResetHeld.saveDone_eq {s : State} (h : ResetHeld s) (v : Bool) : saveDone v s = s := by
  simp [saveDone, h.store.1]

theorem ResetHeld.certAssert_eq {s : State} (h : ResetHeld s) :
    withFreezeEntry s { s with cert := true } = { s with cert := true } := by
  simp [withFreezeEntry, inFreeze, h.lpu_eq, Lpu.initial]

theorem serveRow_of_not_taken {s : State} (h : takesRequests s = false) (r : Request) : serveRow r s = s := by
  simp [serveRow, h]

theorem takesRequests_of_reset {s : State} (h : s.resetLine = true) : takesRequests s = false := by
  simp [takesRequests, h]

/-- No command moves the part away from the RESET-line values while the line is asserted (01 R9). -/
theorem exec_keeps_resetHeld (c : Instr) {s : State} (hr : s.resetLine = true) (h : ResetHeld s) :
    ∃ t, exec c s = .next t ∧ ResetHeld t := by
  cases c with
  | powerUp => exact ⟨_, rfl, volatileLost_resetHeld s true⟩
  | powerDown => exact ⟨_, rfl, volatileLost_resetHeld s false⟩
  | resetAssert a b => exact ⟨_, rfl, by rwa [assertReset, if_pos hr]⟩
  | resetRelease => exact ⟨_, rfl, h⟩
  | storeLoadComplete => exact ⟨_, rfl, by simpa [loadComplete, hr] using h⟩
  | passHeader port f => exact ⟨_, rfl, h.header hr port f⟩
  | frameCutShort port => exact ⟨_, rfl, by rwa [h.cutShort_eq]⟩
  | firstOutField => exact ⟨_, rfl, by rwa [h.latchFirst_eq]⟩
  | outFieldPassage i => exact ⟨_, rfl, by rwa [h.passOutField_eq]⟩
  | inFieldPassage i => exact ⟨_, rfl, by rwa [h.passInField_eq]⟩
  | reportFieldArrival => exact ⟨_, rfl, by rwa [h.passReport_eq]⟩
  | serviceAreaReturn => exact ⟨_, rfl, by rwa [h.passService_eq]⟩
  | outboundCheckWord => exact ⟨_, rfl, by rwa [h.closeOut_eq]⟩
  | serviceComplete n => exact ⟨_, rfl, by rwa [h.completeService_eq]⟩
  | returnCheckWord dt order => exact ⟨_, rfl, by rwa [h.closeReturn_eq]⟩
  | stageTimerExpiry i => exact ⟨_, rfl, by simpa [stageExpires, h.inRun] using h⟩
  | loadBlendEnd g => exact ⟨_, rfl, by simpa [loadBlendEnds, h.inRun] using h⟩
  | settleTimerExpiry g => exact ⟨_, rfl, by simpa [settleExpires, h.inRun] using h⟩
  | trackBlendInEnd g => exact ⟨_, rfl, by simpa [trackBlendIn, h.inRun] using h⟩
  | trackBlendOutEnd g => exact ⟨_, rfl, by simpa [trackBlendOut, h.inRun] using h⟩
  | traceRecordAppend => exact ⟨_, rfl, by rwa [h.traceAppends_eq]⟩
  | lineSilenceExpiry => exact ⟨_, rfl, by rwa [h.silenceEnds_eq]⟩
  | certAssert => exact ⟨_, rfl, by rw [h.certAssert_eq]; exact h⟩
  | certRelease => exact ⟨_, rfl, h⟩
  | saveComplete v => exact ⟨_, rfl, by rwa [h.saveDone_eq]⟩
  | restartEffect => exact ⟨_, rfl, by rwa [h.restartWaitEnds_eq]⟩
  | _ => exact ⟨_, exec_request rfl s, by rwa [serveRow_of_not_taken (takesRequests_of_reset hr)]⟩

/-- Settles O7: command by command, and the release of the line. -/
theorem resetLineHoldsUntilRelease : Obligations.ResetLineHoldsUntilRelease := by
  refine ⟨fun s t hr h hstep => ?_, fun s _ h => ⟨_, rfl, rfl, ?_, ?_⟩⟩
  · unfold step at hstep
    split at hstep
    · rename_i c rest _
      obtain ⟨u, hu, hheld⟩ := exec_keeps_resetHeld c (s := { s with pending := rest }) hr h
      obtain rfl : u = t := Host.Outcome.next.inj (hu.symm.trans hstep)
      exact hheld
    · obtain rfl := Host.Outcome.next.inj hstep
      rw [h.elapse_eq]
      exact h.advance 1
  · exact congrArg Lpu.opState h.lpu_eq
  · exact congrArg SlotEngine.current h.slot_eq

end Sys2Proof.Machine
end

section
/-! SUPPORT. The line fault event at each group and roller (07 R127), and the passing of time while no RESTART takes effect (01 R18; log
7). -/

namespace Sys2Proof.Machine

/-- A group that the line fault event has faulted (07 R127). -/
def Group.lineFaulted (x : Group) : Group :=
  { x with
    state := .faulted, cause := .none, windDown := false, settle := none, speed := 0, residue := 0, loadBlend := none
    blendPos := 0, dir := .none }

/-- A member of a group that the line fault event has faulted: SAFE, without a reference (07 R127). -/
def Roller.lineFaulted (r : Roller) : Roller := { r with seq := Sequence.safe, coup := { r.coup with reference := none } }

/-- A roller is a member of a group exactly where its entry names that group. -/
theorem isMember_iff (t : Tables) (g i : Fin 4) : isMember t g i = true ↔ groupOfRoller t i = some g := by
  unfold isMember groupOfRoller
  cases h : (t.rollers.get i).group with
  | none => simp
  | some n =>
    by_cases hn : n < 4
    · simp [hn, Fin.ext_iff]
    · simp only [hn, dite_false, reduceCtorEq, iff_false]
      have hg := g.isLt
      simp
      omega

theorem lineFaultAt_groups (g : Fin 4) (s : State) (j : Fin 4) :
    (lineFaultAt g s).groups.get j
      = if j = g ∧ (s.groups.get g).state ≠ .idle then (s.groups.get j).lineFaulted else s.groups.get j := by
  unfold lineFaultAt
  by_cases hidle : (s.groups.get g).state = .idle
  · simp [hidle]
  · by_cases hj : j = g
    · subst hj
      simp [hidle, discardTrack, enterFaulted, forceMembers, Group.lineFaulted]
    · simp [hidle, hj, discardTrack, enterFaulted, forceMembers, Quad.get_set]

theorem lineFaultAt_rollers (g : Fin 4) (s : State) (i : Fin 4) :
    (lineFaultAt g s).rollers.get i
      = if groupOfRoller s.tables.active i = some g ∧ (s.groups.get g).state ≠ .idle then (s.rollers.get i).lineFaulted
        else s.rollers.get i := by
  unfold lineFaultAt
  by_cases hidle : (s.groups.get g).state = .idle
  · simp [hidle]
  · by_cases hm : isMember s.tables.active g i = true
    · simp [hidle, hm, (isMember_iff _ _ _).mp hm, discardTrack, enterFaulted, forceMembers, forceSafe, Roller.lineFaulted]
    · have hg : groupOfRoller s.tables.active i ≠ some g := fun h => hm ((isMember_iff _ _ _).mpr h)
      simp [hidle, hm, hg, discardTrack, enterFaulted, forceMembers]

theorem lineFaultAt_tables (g : Fin 4) (s : State) : (lineFaultAt g s).tables = s.tables := by
  obtain ⟨-, -, -, -, -, -, -, -, -, htables, -⟩ := (lineFaultAt_onlyMotion g s).fields
  exact htables

/-- The line fault event at each group (07 R127). -/
theorem lineFault_groups (s : State) (g : Fin 4) :
    (lineFault s).groups.get g = if (s.groups.get g).state ≠ .idle then (s.groups.get g).lineFaulted else s.groups.get g := by
  unfold lineFault
  fin_cases g <;> simp [lineFaultAt_groups]

/-- The line fault event at each roller, which is a member of at most one group (07 R127). -/
theorem lineFault_rollers (s : State) (i : Fin 4) :
    (lineFault s).rollers.get i
      = if (groupOfRoller s.tables.active i).any (fun g => decide ((s.groups.get g).state ≠ .idle)) then (s.rollers.get i).lineFaulted
        else s.rollers.get i := by
  unfold lineFault
  simp only [lineFaultAt_rollers, lineFaultAt_tables]
  cases groupOfRoller s.tables.active i with
  | none => simp
  | some g => fin_cases g <;> simp [lineFaultAt_groups]

/-- The state with another line port, store and responder. -/
def State.withLine (s : State) (l : Lpu) (x : Store) (v : Responder) : State := { s with lpu := l, store := x, svc := v }

theorem lineFaultAt_withLine (g : Fin 4) (s : State) (l : Lpu) (x : Store) (v : Responder) :
    lineFaultAt g (s.withLine l x v) = (lineFaultAt g s).withLine l x v := by
  unfold lineFaultAt State.withLine
  simp only
  split <;> rfl

/-- The line fault event neither reads nor touches the line port, the store and the requests. -/
theorem lineFault_withLine (s : State) (l : Lpu) (x : Store) (v : Responder) :
    lineFault (s.withLine l x v) = (lineFault s).withLine l x v := by
  unfold lineFault
  simp only [lineFaultAt_withLine]

/-! ### Time that passes -/

/-- The line silence timer has expired: it is stopped, RING_LOST is set and a resync is due (01 R18). -/
def Lpu.silenced (x : Lpu) : Lpu :=
  { x with silenceTimer := none, resyncDue := true, flags := { x.flags with ringLost := true } }

/-- The line timers after dt microseconds. -/
def Lpu.later (dt : Nat) (x : Lpu) : Lpu :=
  { x with silenceTimer := x.silenceTimer.map (· + dt), arrivalTimer := x.arrivalTimer.map (· + dt) }

/-- The wait of a RESTART after dt microseconds (12 R184). -/
def Store.later (dt : Nat) (x : Store) : Store := { x with restart := x.restart.map fun w => { w with waited := w.waited + dt } }

/-- Time that passes moves what the line port, the store and the responder hold alone (log 7). -/
theorem advanceTimers_withLine (dt : Nat) (s : State) (l : Lpu) (x : Store) (v : Responder) :
    advanceTimers dt (s.withLine l x v) = s.withLine (l.later dt) (x.later dt) (ageEntries dt v) := rfl

/-- The expiry of the silence timer and the rest of the time that passes: the timers advance, then the line fault event (01 R18). -/
theorem advanceTimers_silenceExpiry (dt : Nat) (s : State) :
    advanceTimers dt (silenceExpiry s) = lineFault ((advanceTimers dt s).onLpu Lpu.silenced) := by
  have hexpiry : silenceExpiry s = lineFault (s.withLine s.lpu.silenced s.store s.svc) := rfl
  have hlater : (advanceTimers dt s).onLpu Lpu.silenced =
      s.withLine (s.lpu.silenced.later dt) (s.store.later dt) (ageEntries dt s.svc) := rfl
  rw [hexpiry, hlater, lineFault_withLine, lineFault_withLine, advanceTimers_withLine]

/-- Time that passes without the end of a RESTART's wait: the timers advance, and the silence timer expires where its end falls within the
time (01 R18; log 7). -/
theorem elapse_of_no_restart {inclusive : Bool} {dt : Nat} {s : State} (h : within inclusive dt (restartLeft s) = false) :
    elapse inclusive dt s =
      if within inclusive dt (silenceLeft s) then lineFault ((advanceTimers dt s).onLpu Lpu.silenced) else advanceTimers dt s := by
  unfold elapse
  simp only [h, Bool.false_and, Bool.false_eq_true, if_false]
  split
  · exact advanceTimers_silenceExpiry dt s
  · rfl

/-- The silence timer runs in ACTIVE with E set alone (01 R18). -/
theorem silenceLeft_eq_some {s : State} {r : Nat} :
    silenceLeft s = some r ↔
      s.lpu.opState = .active ∧ s.lpu.ext ≠ none ∧ ∃ n, s.lpu.silenceTimer = some n ∧ silenceLimit s - n = r := by
  unfold silenceLeft
  split
  · rename_i hst he ht
    simp [hst, he, ht]
  · rename_i hno
    constructor
    · intro h; cases h
    · rintro ⟨hst, he, n, hn, -⟩
      obtain ⟨e, he⟩ := Option.ne_none_iff_exists'.mp he
      exact (hno e n hst he hn).elim

/-- The silence timer reaches its limit within the time that passes, or passes it where an end at the end of that time is left for later
(01 R18; log 7). -/
theorem within_silenceLeft (inclusive : Bool) (dt : Nat) (s : State) :
    within inclusive dt (silenceLeft s) = true ↔
      s.lpu.opState = .active ∧ s.lpu.ext ≠ none
        ∧ ∃ n, s.lpu.silenceTimer = some n ∧ if inclusive then silenceLimit s - n ≤ dt else silenceLimit s - n < dt := by
  have hwithin : within inclusive dt (silenceLeft s) = true ↔
      ∃ r, silenceLeft s = some r ∧ if inclusive then r ≤ dt else r < dt := by
    cases silenceLeft s <;> cases inclusive <;> simp [within]
  rw [hwithin]
  simp only [silenceLeft_eq_some]
  constructor
  · rintro ⟨_, ⟨hst, he, n, hn, rfl⟩, hle⟩
    exact ⟨hst, he, n, hn, hle⟩
  · rintro ⟨hst, he, n, hn, hle⟩
    exact ⟨_, ⟨hst, he, n, hn, rfl⟩, hle⟩

theorem silenceLimit_eq (s : State) :
    silenceLimit s = (s.tables.active.cell.missLimit + 2) * s.tables.active.cell.cycleUs := rfl

/-- Settles O1: the queue's front, and `elapse_of_no_restart` for one microsecond. -/
theorem stepRunsFrontCommand : Obligations.StepRunsFrontCommand := by
  refine ⟨fun _ _ _ => rfl, fun s hp hwait => ?_⟩
  have hr : within true 1 (restartLeft s) = false := by
    cases h : s.store.restart with
    | none => simp [restartLeft, h, within]
    | some w =>
      have := hwait w h
      simp [restartLeft, h, within, Config.restartWait]
      omega
  have hstep : step s = .next (elapse true 1 s) := by unfold step; rw [hp]
  have hsilent := within_silenceLeft true 1 s
  have hlimit (n : Nat) : silenceLimit s - n ≤ 1 ↔
      (s.tables.active.cell.missLimit + 2) * s.tables.active.cell.cycleUs ≤ n + 1 := by
    rw [silenceLimit_eq]
    omega
  simp only [if_true, hlimit] at hsilent
  intro older later silent
  refine ⟨fun hno => ?_, fun hyes => ?_⟩
  · rw [hstep, elapse_of_no_restart hr, if_neg (fun hw => hno (hsilent.mp hw))]
    rfl
  · rw [hstep, elapse_of_no_restart hr, if_pos (hsilent.mpr hyes)]
    rfl

/-- Settles O29: the expiry from `elapse_of_no_restart`, and the line fault event group by group and roller by roller. -/
theorem silenceExpiryRaisesLineFault : Obligations.SilenceExpiryRaisesLineFault := by
  refine ⟨fun s e n hst he hn hre => ?_, fun s => ⟨lineFault_onlyMotion s, fun g hg => ?_, fun g hg => ?_, fun i => ?_⟩⟩
  · have hleft : silenceLeft s = some (silenceLimit s - n) := silenceLeft_eq_some.mpr ⟨hst, by simp [he], n, hn, rfl⟩
    have hr : within true (silenceLimit s - n) (restartLeft s) = false := by simp [restartLeft, hre, within]
    have hends : silenceEnds s = elapse true (silenceLimit s - n) s := by simp [silenceEnds, hleft]
    have hstore : (advanceTimers (silenceLimit s - n) s).store = s.store := by
      cases hx : s.store
      simp_all [advanceTimers]
    show Host.Outcome.next (silenceEnds s) = _
    rw [hends, elapse_of_no_restart hr, hleft, if_pos (by simp [within])]
    refine congrArg (fun u => Host.Outcome.next (lineFault u)) ?_
    show { s with lpu := _, store := (advanceTimers (silenceLimit s - n) s).store, svc := _ } = _
    rw [hstore]
    rfl
  · rw [lineFault_groups, if_neg (not_not.mpr hg)]
  · rw [lineFault_groups, if_pos hg]
    rfl
  · rw [lineFault_rollers]
    rfl

end Sys2Proof.Machine
end

section
/-! SUPPORT. The check word of a return frame: what the frame gives (01 R3, R5, R8, R12, R13, R14; 02 R26), and the classification of a good one
(01 R14, R15, R17, R20). -/

namespace Sys2Proof.Machine

/-! ### Classification -/

theorem gapOf_of_last {s : State} {l : BitVec 16} (h : s.lpu.last = some l) (cycle : BitVec 16) :
    gapOf s cycle = (cycle - l).toNat := by
  simp [gapOf, h]

/-- The four rows of R14, by E, a resync that is due, and the gap. -/
theorem classify_first (order : List (Fin 4)) (cycle : BitVec 16) {s : State} (h : s.lpu.ext = none) :
    classify order cycle s = acceptFirst order cycle s := by
  simp [classify, h]

theorem classify_duplicate (order : List (Fin 4)) (cycle : BitVec 16) {s : State} {e : Nat} (he : s.lpu.ext = some e)
    (hdue : s.lpu.resyncDue = false) (hgap : gapOf s cycle = 0) :
    classify order cycle s = s.onLpu fun x => { x with flags := { x.flags with duplicate := true } } := by
  simp [classify, he, hdue, hgap]

theorem classify_ordinary (order : List (Fin 4)) (cycle : BitVec 16) {s : State} {e : Nat} (he : s.lpu.ext = some e)
    (hdue : s.lpu.resyncDue = false) (hpos : 1 ≤ gapOf s cycle) (hle : gapOf s cycle ≤ s.tables.active.cell.missLimit + 1) :
    classify order cycle s = acceptOrdinary order e (gapOf s cycle) cycle s := by
  have hne : gapOf s cycle ≠ 0 := by omega
  simp [classify, he, hdue, hne, hle]

theorem classify_resync (order : List (Fin 4)) (cycle : BitVec 16) {s : State} {e : Nat} (he : s.lpu.ext = some e)
    (h : s.lpu.resyncDue = true ∨ s.tables.active.cell.missLimit + 1 < gapOf s cycle) :
    classify order cycle s = acceptResync order e (gapOf s cycle) cycle s := by
  simp only [classify, he]
  rcases h with h | h
  · rw [if_pos h]
  · have hne : gapOf s cycle ≠ 0 := by omega
    have hle : ¬ gapOf s cycle ≤ s.tables.active.cell.missLimit + 1 := by omega
    rw [if_neg hne, if_neg hle, ite_self]

/-- Settles O26, row by row of R14. -/
theorem returnFramesClassified : Obligations.ReturnFramesClassified := by
  intro s order cycle accepted
  refine ⟨fun hnone => ?_, fun e l he hl => ?_⟩
  · rw [classify_first order cycle hnone]
    exact ⟨rfl, acceptedCycle_lpu _ _ _ _ _⟩
  · intro gap limit
    have hgap : gapOf s cycle = gap := gapOf_of_last hl cycle
    refine ⟨fun hdue h0 => ?_, fun hdue hpos hle => ?_, fun h => ?_⟩
    · exact classify_duplicate order cycle he hdue (hgap.trans h0)
    · rw [classify_ordinary order cycle he hdue (by omega) (by omega), hgap]
      have hoff : offTime s gap = decide (s.tables.active.cell.toleranceUs
          < ((s.lpu.arrivalTimer.getD 0 : Int) - gap * s.tables.active.cell.cycleUs).natAbs) := by
        simp [offTime, periodOf]
      unfold acceptOrdinary countMissed
      rw [hoff]
      exact ⟨rfl, acceptedCycle_lpu _ _ _ _ _⟩
    · rw [classify_resync order cycle he (by rwa [hgap]), hgap]
      refine ⟨rfl, ?_⟩
      unfold acceptResync
      simp only
      rw [acceptedCycle_lpu, State.onLpu_lpu, lineFault_lpu]
      rfl

/-! ### The check word -/

/-- The check word of a whole return frame that no RESTART has cut (01 R3, R5; 02 R26). -/
theorem closeReturn_of_pass {dt : Nat} (order : List (Fin 4)) {s u : State} {p : Pass} (hu : elapse false dt s = u)
    (hp : u.retPass = some p) (hf : p.followed = true) (hlen : p.rx.length = declaredLen p.rx) (hcut : p.cut = false) :
    closeReturn dt order s =
      if checkGood p.rx then clearBuffers (goodReturn order p { u with retPass := none, sentM := some (sentFrame p) })
      else clearBuffers (checkBad { u with retPass := none, sentM := some (sentFrame p) }) := by
  unfold closeReturn
  simp [hu, hp, hf, hcut, Pass.whole, hlen]

theorem goodReturn_classified (order : List (Fin 4)) {p : Pass} {s : State} (hm : p.mode = .active) (hs : p.short = false)
    (hv : p.voided = false) (ha : s.lpu.opState = .active) : goodReturn order p s = classify order (frameCycle p.rx) s := by
  simp [goodReturn, mayAccept, hm, hs, hv, ha]

theorem goodReturn_short (order : List (Fin 4)) {p : Pass} (s : State) (hm : p.mode = .active) (hs : p.short = true) :
    goodReturn order p s = s.onLpu fun x => { x with flags := { x.flags with shortFrame := true } } := by
  simp [goodReturn, hm, hs]

/-- A good frame gives nothing where its pass was fixed in BYPASS, a HALT has met it, or the part is not in ACTIVE (01 R8, R12). -/
theorem goodReturn_nothing (order : List (Fin 4)) {p : Pass} {s : State}
    (h : p.mode = .bypass ∨ (p.short = false ∧ (p.voided = true ∨ s.lpu.opState ≠ .active))) : goodReturn order p s = s := by
  rcases h with hm | ⟨hs, hv | ha⟩
  · simp [goodReturn, mayAccept, hm]
  · simp [goodReturn, mayAccept, hs, hv]
  · simp [goodReturn, mayAccept, hs, ha]

/-- Time that passes without a RESTART's effect leaves the passes, the tables and the operating state (log 7). -/
theorem elapsed_kept {dt : Nat} {s : State} (h : within false dt (restartLeft s) = false) :
    (elapse false dt s).retPass = s.retPass ∧ (elapse false dt s).lpu.opState = s.lpu.opState := by
  rw [elapse_of_no_restart h]
  split
  · obtain ⟨-, -, -, hlpu, -, hret, -⟩ := (lineFault_onlyMotion ((advanceTimers dt s).onLpu Lpu.silenced)).fields
    rw [hlpu, hret]
    exact ⟨rfl, rfl⟩
  · exact ⟨rfl, rfl⟩

/-- Settles O25: the time that passes by `elapse_of_no_restart`, then the frame by `closeReturn_of_pass` and what a good one gives. -/
theorem returnCheckWordDecides : Obligations.ReturnCheckWordDecides := by
  intro s p dt order hp hf hlen hcut hwait older later silent
  refine ⟨rfl, fun u hstill hsilent => ?_⟩
  have hr : within false dt (restartLeft s) = false := by
    cases h : s.store.restart with
    | none => simp [restartLeft, h, within]
    | some w =>
      have hw := hwait w h
      simp [restartLeft, h, within, Config.restartWait]
      omega
  have hiff : within false dt (silenceLeft s) = true ↔ silent := by
    have hlimit (n : Nat) : silenceLimit s - n < dt ↔
        0 < dt ∧ (s.tables.active.cell.missLimit + 2) * s.tables.active.cell.cycleUs < n + dt := by
      rw [silenceLimit_eq]
      omega
    simp only [within_silenceLeft, Bool.false_eq_true, if_false, hlimit]
    rfl
  have hu : elapse false dt s = u := by
    rw [elapse_of_no_restart hr]
    split
    · rename_i h
      exact (hsilent (hiff.mp h)).symm
    · rename_i h
      exact (hstill fun k => h (hiff.mpr k)).symm
  obtain ⟨hret, hop⟩ := elapsed_kept hr
  rw [hu] at hret hop
  have hclose := closeReturn_of_pass order hu (hret.trans hp) hf hlen hcut
  intro sent
  have hsent : sent.lpu.opState = s.lpu.opState := hop
  have hexec (v : State) (h : closeReturn dt order s = v) : exec (.returnCheckWord dt order) s = .next v :=
    congrArg Host.Outcome.next h
  refine ⟨fun hg hm hs hv ha => hexec _ ?_, fun hg hm hs => hexec _ ?_, fun hg h => hexec _ ?_, fun hg => hexec _ ?_⟩
  · rw [hclose, if_pos hg, goodReturn_classified order hm hs hv (s := sent) (hsent.trans ha)]
  · rw [hclose, if_pos hg, goodReturn_short order _ hm hs]
    rfl
  · rw [hclose, if_pos hg, goodReturn_nothing order (s := sent) (by rwa [hsent])]
  · rw [hclose, hg]
    rfl

end Sys2Proof.Machine
end

section
/-! SUPPORT. Frames in passage: what a header fixes (01 R1, R2, R6, R13; 10 R165), how a frame leaves (01 R3, R4, R5), and what the check word
of an outbound frame gives (10 R162, R163, R164). -/

namespace Sys2Proof.Machine

/-! ### Headers -/

/-- The comparison of a cycle number that the oldest entry has (10 R165; log 43). -/
theorem matchReturn_oldest {s : State} {e : ReplyEntry} {rest : List ReplyEntry} {cycle : BitVec 16} (hq : s.svc.queue = e :: rest)
    (hc : e.cycle = cycle) : matchReturn cycle s = (some e.id, s) := by
  simp [matchReturn, hq, hc, dropAll]

/-- The comparison of a cycle number that no entry has (10 R165). -/
theorem matchReturn_no_entry {s : State} {cycle : BitVec 16} (h : ∀ e ∈ s.svc.queue, e.cycle ≠ cycle) :
    matchReturn cycle s = (none, s) := by
  have hdrop : s.svc.queue.dropWhile (fun e => decide (e.cycle ≠ cycle)) = [] := by
    rw [List.dropWhile_eq_nil_iff]
    simpa using h
  unfold matchReturn
  rw [hdrop]

/-- The mode a cycle frame's pass is fixed in, in BYPASS or ACTIVE (01 R6). -/
theorem modeOf_cycle {s : State} {bytes : List Byte} (hr : s.resetLine = false) (hst : s.lpu.opState ≠ .starting)
    (hc : isCycleFrame bytes = true) : modeOf s bytes = if s.lpu.opState = .active then .active else .bypass := by
  unfold modeOf
  rw [if_pos hc, hr]
  cases h : s.lpu.opState
  · exact absurd h hst
  · rfl
  · rfl

/-- The part follows a cycle frame whose header arrives in BYPASS or ACTIVE (01 R6). -/
theorem newPass_followed {s : State} {f : LinkFrame} (hr : s.resetLine = false) (hst : s.lpu.opState ≠ .starting)
    (hc : isCycleFrame f.bytes = true) : (newPass s f).followed = true := by
  unfold Pass.followed newPass
  simp only [modeOf_cycle hr hst hc]
  split <;> simp_all

/-- The header of a frame the part follows. -/
theorem outHeader_of_followed {s : State} {f : LinkFrame} (h : (newPass s f).followed = true) :
    outHeader f s = { s with outPass := some (newPass s f) } := by
  simp [outHeader, sentUnfollowed, h]

theorem returnHeader_of_followed {s : State} {f : LinkFrame} {m : Option Nat} (h : (newPass s f).followed = true)
    (hm : matchReturn (frameCycle f.bytes) s = (m, s)) (hd : restartDue s = false) :
    returnHeader f s = { s with
      retPass := some { newPass s f with matched := m }, slot := { s.slot with buffers := Quad.all none } } := by
  unfold returnHeader
  simp only [h, sentUnfollowed, if_true, hm]
  exact afterQueue_of_not_due hd

theorem headerArrives_m {s : State} (f : LinkFrame) (hp : s.powered = true) : headerArrives .m f s = outHeader f s := by
  simp [headerArrives, hp]

theorem headerArrives_d {s : State} (f : LinkFrame) (hp : s.powered = true) : headerArrives .d f s = returnHeader f s := by
  simp [headerArrives, hp]

/-- Settles O15: a followed frame by its match in the reply queue, and an unfollowed one. -/
theorem headerFixesPass : Obligations.HeaderFixesPass := by
  refine ⟨fun s f hp hr hst hc hd => ?_, fun s f hp h hd => ⟨⟨newPass s f, newPass_unfollowed f h, rfl, rfl, ?_⟩,
    ⟨newPass s f, newPass_unfollowed f h, rfl, rfl, ?_⟩⟩⟩
  · intro bytes p
    have hnew : newPass s f = p := by
      unfold newPass
      rw [modeOf_cycle hr hst hc]
    have hf := newPass_followed hr hst hc
    have hret {m : Option Nat} (hm : matchReturn (frameCycle bytes) s = (m, s)) :
        exec (.passHeader .d f) s = .next { s with
          retPass := some { p with matched := m }, slot := { s.slot with buffers := Quad.all none } } := by
      show Host.Outcome.next (headerArrives .d f s) = _
      rw [headerArrives_d f hp, returnHeader_of_followed hf hm hd, hnew]
    refine ⟨?_, fun e rest hq he => hret (matchReturn_oldest hq he), fun hq => hret (matchReturn_no_entry hq)⟩
    show Host.Outcome.next (headerArrives .m f s) = _
    rw [headerArrives_m f hp, outHeader_of_followed hf, hnew]
  · show Host.Outcome.next (headerArrives .m f s) = _
    rw [headerArrives_m f hp, outHeader_of_unfollowed f (newPass_unfollowed f h)]
  · show Host.Outcome.next (headerArrives .d f s) = _
    rw [headerArrives_d f hp, returnHeader_of_unfollowed f (newPass_unfollowed f h) hd]

/-! ### How a frame leaves -/

theorem checkAt_add_four (bs : List Byte) : checkAt bs + 4 = declaredLen bs := by
  simp only [checkAt, declaredLen]
  omega

/-- The declared length is told by the header (13 Section 13.1). -/
theorem frameSlotLen_of_header {a b : List Byte} (h : a.take 5 = b.take 5) : frameSlotLen a = frameSlotLen b := by
  have hslice (l : List Byte) : sliceAt l 3 2 = sliceAt (l.take 5) 3 2 := by
    simp [sliceAt, List.drop_take]
  unfold frameSlotLen
  rw [hslice a, hslice b, h]

/-- A frame of its declared length proves good exactly where its check word is the check over what stands before it (01 R3). -/
theorem checkGood_append {head word : List Byte} {n : Nat} (hhead : head.length = n) (hword : word.length = 4)
    (hn : checkAt (head ++ word) = n) : checkGood (head ++ word) = decide (word = checkBytes (crc32 head)) := by
  have hlen : (head ++ word).length = declaredLen (head ++ word) := by
    rw [← checkAt_add_four, hn, List.length_append, hhead, hword]
  unfold checkGood frameCheck checkOver sliceAt
  rw [hn, ← hhead]
  simp [hlen, ← hword]

/-- The header outlasts the passage, so the frame as it leaves declares the length it arrived with (01 R1). -/
theorem checkAt_written {p : Pass} (h : PassOk p) (w : List Byte) (hl : p.rx.length = declaredLen p.rx) :
    checkAt (p.tx.take (checkAt p.rx) ++ w) = checkAt p.rx := by
  obtain ⟨hlen, hhead, -⟩ := h
  have hlong : 5 ≤ (p.tx.take (checkAt p.rx)).length := by
    simp only [List.length_take, hlen, hl, checkAt, declaredLen]
    omega
  have htake : (p.tx.take (checkAt p.rx) ++ w).take 5 = p.rx.take 5 := by
    rw [List.take_append_of_le_length hlong, List.take_take, ← hhead]
    congr 1
    simp only [checkAt]
    omega
  exact congrArg (75 + ·) (frameSlotLen_of_header htake)

theorem forwarded_unwritten {p : Pass} (h : PassOk p) (hw : p.written = false) (hl : p.rx.length = declaredLen p.rx) (good : Bool) :
    forwarded good p = p.rx := by
  obtain ⟨-, -, hplain⟩ := h
  unfold forwarded
  rw [hw, if_neg Bool.false_ne_true, hplain hw, ← hl, List.take_length]

theorem forwarded_written {p : Pass} (hw : p.written = true) (good : Bool) :
    forwarded good p = p.tx.take (checkAt p.rx) ++ sentCheck good p := by
  simp [forwarded, hw]

theorem sentCheck_good (p : Pass) : sentCheck true p = checkBytes (crc32 (p.tx.take (checkAt p.rx))) := rfl

theorem sentCheck_bad (p : Pass) : sentCheck false p = checkBytes (~~~ crc32 (p.tx.take (checkAt p.rx))) := rfl

theorem sentCheck_length (good : Bool) (p : Pass) : (sentCheck good p).length = 4 := by
  simp [sentCheck]

theorem checkBytes_compl_ne (c : BitVec 32) : checkBytes (~~~c) ≠ checkBytes c :=
  fun h => not_compl_self c (checkBytes_inj h)

theorem sentFrame_whole {p : Pass} (hl : p.rx.length = declaredLen p.rx) :
    sentFrame p = { bytes := forwarded (checkGood p.rx) p, aborted := false } := by
  simp [sentFrame, Pass.whole, hl]

/-- The bytes before the check word of a frame that leaves (01 R3). -/
theorem written_head_length {p : Pass} (h : PassOk p) (hl : p.rx.length = declaredLen p.rx) :
    (p.tx.take (checkAt p.rx)).length = checkAt p.rx := by
  have := checkAt_add_four p.rx
  rw [List.length_take, h.1]
  omega

/-- A written frame leaves with a good check exactly where it is sent with the check over its bytes as forwarded (01 R3). -/
theorem checkGood_written {p : Pass} (h : PassOk p) (hl : p.rx.length = declaredLen p.rx) (good : Bool) :
    checkGood (p.tx.take (checkAt p.rx) ++ sentCheck good p) = good := by
  rw [checkGood_append (written_head_length h hl) (sentCheck_length good p) (checkAt_written h _ hl)]
  cases good with
  | true => simp [sentCheck_good]
  | false => exact decide_eq_false (checkBytes_compl_ne _)

/-- Settles O18: an unwritten frame leaves as it arrived, and a written one with the check word `checkGood_written` judges. -/
theorem checkWordFollowsArrival : Obligations.CheckWordFollowsArrival := by
  intro p h _ hl
  rw [sentFrame_whole hl]
  refine ⟨rfl, ?_, fun hw => forwarded_unwritten h hw hl _, fun hw hg => ?_, fun hw hg => ?_, ?_⟩
  · have hlen := written_head_length h hl
    have hsum := checkAt_add_four p.rx
    cases hw : p.written with
    | false => rw [forwarded_unwritten h hw hl]
    | true =>
      rw [forwarded_written hw, List.length_append, hlen, sentCheck_length]
      omega
  · rw [forwarded_written hw, hg, sentCheck_good]
  · rw [forwarded_written hw, hg, sentCheck_bad]
  · cases hw : p.written with
    | false => rw [forwarded_unwritten h hw hl]
    | true => rw [forwarded_written hw, checkGood_written h hl]

/-! ### Frames of the wrong length -/

/-- A frame of the wrong length leaves with what a bad check gives, cut at its own end or at the declared one (01 R3, R4). -/
theorem sentFrame_cut {p : Pass} (h : p.rx.length ≠ declaredLen p.rx) :
    sentFrame p = {
      bytes := if p.rx.length < declaredLen p.rx then (forwarded false p).take p.tx.length else forwarded false p
      aborted := true } := by
  unfold sentFrame Pass.whole
  rw [decide_eq_false h, if_neg Bool.false_ne_true]
  split <;> rfl

/-- A bad check counts up to the limit of its count (01 R5). -/
theorem checkBad_eq (s : State) : checkBad s = { s with lpu := { s.lpu with
    flags := { s.lpu.flags with checkErr := true }, checkErrCount := min 65535 (s.lpu.checkErrCount + 1) } } := rfl

theorem cutCheck_eq {p : Pass} (h : p.cut = false) (s : State) : cutCheck p s = checkBad s := by
  simp [cutCheck, h]

theorem not_whole {p : Pass} (h : p.rx.length ≠ declaredLen p.rx) : p.whole = false := decide_eq_false h

/-- An entry whose frame ends early is removed, and its request goes on in service where its result is absent; nothing is recorded (10
R165; log 25). -/
theorem dropSilently_eq (e : ReplyEntry) (s : State) :
    dropSilently e s = { s with svc := { s.svc with
      queue := s.svc.queue.filter fun x => decide (x.id ≠ e.id)
      orphans := if e.result.isNone then s.svc.orphans ++ [{ e with record := false }] else s.svc.orphans } } := by
  unfold dropSilently
  split
  · rename_i h
    rw [show e.result.isNone = false by rw [h]; rfl]
    rfl
  · rename_i h
    rw [show e.result.isNone = true by rw [h]; rfl]
    rfl

/-- Settles O17: `sentFrame_cut` for how the frame leaves, then the bad check and the entry of a return frame. -/
theorem cutFramesCountAsBad : Obligations.CutFramesCountAsBad := by
  intro s p hf hcut hlen bad marked left ended
  have hleft : sentFrame p = left := by
    rw [sentFrame_cut hlen]
    rfl
  have hret (hp : s.retPass = some p) : cutShort .d s
      = afterQueue (clearBuffers (cutReply p (checkBad { s with retPass := none, sentM := some left }))) := by
    simp only [cutShort, hp, hf, not_whole hlen, cutCheck_eq hcut, hleft]
    rfl
  refine ⟨fun hp => ?_, fun hp hno hd => ?_, fun e hp hshort hm he hr => ?_⟩
  · show Host.Outcome.next (cutShort .m s) = _
    simp only [cutShort, hp, hf, not_whole hlen, cutCheck_eq hcut, hleft]
    rfl
  · show Host.Outcome.next (cutShort .d s) = _
    have hsame (u : State) (hu : u.svc = s.svc) : cutReply p u = u := by
      have hentry (id : Nat) : entryOfId id u = entryOfId id s := by rw [entryOfId, hu, entryOfId]
      unfold cutReply
      split
      · rename_i e he
        rcases hno with hlong | hnone
        · rw [if_neg (by omega)]
        · obtain ⟨id, hid, hfound⟩ := Option.bind_eq_some_iff.mp he
          simp [hentry, hnone id hid] at hfound
      · rfl
    rw [hret hp, hsame (checkBad { s with retPass := none, sentM := some left }) rfl]
    exact congrArg Host.Outcome.next (afterQueue_of_not_due hd)
  · show Host.Outcome.next (cutShort .d s) = _
    have hdrop (u : State) (hu : u.svc = s.svc) : cutReply p u = dropSilently e u := by
      have hentry : entryOfId e.id u = some e := by rw [entryOfId, hu, ← entryOfId, he]
      simp [cutReply, hm, hentry, hshort]
    rw [hret hp, hdrop (checkBad { s with retPass := none, sentM := some left }) rfl, dropSilently_eq]
    exact congrArg Host.Outcome.next (afterQueue_of_not_due (restartDue_of_none hr))

/-! ### The check word of an outbound frame -/

/-- A request finds room in a queue of at most three entries (10 R164). -/
theorem makeRoom_of_room {s : State} (h : s.svc.queue.length < 4) : makeRoom s = s := by
  have hroom : ¬ Config.queueMax ≤ s.svc.queue.length := Nat.not_le.mpr h
  simp [makeRoom, hroom]

/-- The check word of a whole outbound frame that no RESTART has cut (01 R3, R5; 10 R162). -/
theorem closeOut_of_pass {s : State} {p : Pass} (hp : s.outPass = some p) (hf : p.followed = true)
    (hlen : p.rx.length = declaredLen p.rx) (hcut : p.cut = false) :
    closeOut s =
      if checkGood p.rx then afterQueue (takeFromFrame p { s with outPass := none, sentD := some (sentFrame p) })
      else checkBad { s with outPass := none, sentD := some (sentFrame p) } := by
  simp [closeOut, hp, hf, hcut, Pass.whole, hlen]

/-- A kind that is none of the eighteen is no request (13 Section 13.4). -/
theorem requestOf_eq_none {kind : Byte} (h : kind.toNat = 0 ∨ 18 < kind.toNat) (payload : List Byte) :
    requestOf kind payload = none := by
  unfold requestOf
  split
  case h_19 => rfl
  all_goals omega

theorem requestOf_isSome {kind : Byte} (h : 1 ≤ kind.toNat ∧ kind.toNat ≤ 18) (payload : List Byte) :
    ∃ r, requestOf kind payload = some r := by
  obtain ⟨hlow, hhigh⟩ := h
  unfold requestOf
  generalize kind.toNat = n at hlow hhigh
  interval_cases n <;> exact ⟨_, rfl⟩

theorem judgedResult_unknown {kind : Byte} {payload : List Byte} (h : requestOf kind payload = none) (len : Nat) :
    judgedResult kind len payload = some ⟨.unknown, []⟩ := by
  simp [judgedResult, judge, h, plainReply]

theorem judgedResult_invalid {kind : Byte} {payload : List Byte} {r : Request} (h : requestOf kind payload = some r)
    (hl : requestLen kind payload = none) (len : Nat) : judgedResult kind len payload = some ⟨.invalid, []⟩ := by
  simp [judgedResult, judge, h, hl, plainReply]

/-- A request of a fixed length goes to its owner with that length, and is refused LENGTH with another (10 R163). -/
theorem judgedResult_length {kind : Byte} {payload : List Byte} {r : Request} (h : requestOf kind payload = some r) {n : Nat}
    (hl : requestLen kind payload = some n) (len : Nat) :
    judgedResult kind len payload = if len = n then none else some ⟨.length, []⟩ := by
  by_cases hn : len = n <;> simp [judgedResult, judge, h, hl, hn, plainReply]

/-- The fixed length of every kind but WRITE_ENTRY (13 Section 13.4). -/
theorem requestLen_fixed (kind : Byte) (payload : List Byte) : ∀ x ∈ [(1, 0), (2, 0), (3, 8), (4, 0), (5, 0), (6, 2), (7, 3), (9, 2),
    (10, 12), (11, 1), (12, 2), (13, 0), (14, 0), (15, 3), (16, 0), (17, 0), (18, 0)], kind.toNat = x.1 →
      (1 ≤ kind.toNat ∧ kind.toNat ≤ 18) ∧ requestLen kind payload = some x.2 := by
  simp only [List.forall_mem_cons, List.not_mem_nil, false_implies, implies_true, and_true]
  refine ⟨?_, ?_, ?_, ?_, ?_, ?_, ?_, ?_, ?_, ?_, ?_, ?_, ?_, ?_, ?_, ?_, ?_⟩
  all_goals
    intro hk
    refine ⟨by omega, ?_⟩
    simp [requestLen, hk]

/-- The fixed length of WRITE_ENTRY, by the table its first payload byte names (13 Sections 13.4 and 13.5; log 39). -/
theorem requestLen_writeEntry {kind : Byte} {payload : List Byte} (hk : kind.toNat = 8) :
    ∀ x ∈ [(0, 14), (1, 7), (2, 32), (3, 13), (4, 12)], (payloadByte payload 0).toNat = x.1 → requestLen kind payload = some x.2 := by
  simp only [List.forall_mem_cons, List.not_mem_nil, false_implies, implies_true, and_true]
  refine ⟨?_, ?_, ?_, ?_, ?_⟩
  all_goals
    intro ht
    simp [requestLen, hk, tableOf, tableOfCode, ht, entrySize]

theorem requestLen_no_table {kind : Byte} {payload : List Byte} (hk : kind.toNat = 8) (ht : 4 < (payloadByte payload 0).toNat) :
    requestLen kind payload = none := by
  have htable : tableOf (payloadByte payload 0) = none := by
    unfold tableOf tableOfCode
    split
    case h_6 => rfl
    all_goals omega
  simp [requestLen, hk, htable]

/-- Settles O23: the check word by `closeOut_of_pass`, the judgement by kind and length. -/
theorem outboundCheckTakesRequest : Obligations.OutboundCheckTakesRequest := by
  refine ⟨fun s p hp hf hlen hcut hre => ?_, fun kind len payload => ⟨fun h => ?_, fun hk ht => ?_, fun x hx hk => ?_, fun x hx hk ht => ?_⟩⟩
  · intro sent
    have hclose : exec .outboundCheckWord s = .next (if checkGood p.rx then afterQueue (takeFromFrame p sent) else checkBad sent) :=
      congrArg Host.Outcome.next (closeOut_of_pass hp hf hlen hcut)
    refine ⟨fun hg ha hroom => ?_, fun hg ha => ?_, fun hg => ?_⟩
    · have htake : takeFromFrame p sent = takeRequest (serviceByte p.rx 1) (serviceByte p.rx 2).toNat (servicePayload p.rx)
          (frameCycle p.rx) sent := by simp [takeFromFrame, Pass.addressed, ha]
      rw [hclose, if_pos hg, htake, takeRequest, makeRoom_of_room (s := sent) hroom]
      exact congrArg Host.Outcome.next (afterQueue_of_not_due (restartDue_of_none hre))
    · have htake : takeFromFrame p sent = sent := by simp [takeFromFrame, Pass.addressed, ha]
      rw [hclose, if_pos hg, htake]
      exact congrArg Host.Outcome.next (afterQueue_of_not_due (restartDue_of_none hre))
    · rw [hclose, hg]
      rfl
  · exact judgedResult_unknown (requestOf_eq_none h payload) len
  · obtain ⟨r, hr⟩ := requestOf_isSome (kind := kind) (by omega) payload
    exact judgedResult_invalid hr (requestLen_no_table hk ht) len
  · obtain ⟨hrange, hl⟩ := requestLen_fixed kind payload x hx hk
    obtain ⟨r, hr⟩ := requestOf_isSome hrange payload
    exact judgedResult_length hr hl len
  · obtain ⟨r, hr⟩ := requestOf_isSome (kind := kind) (by omega) payload
    exact judgedResult_length hr (requestLen_writeEntry hk x hx ht) len

end Sys2Proof.Machine
end

section
/-! SUPPORT. The slot area: the out-fields through the stage gate (02 R23, R27, R29, R31), the in-fields and the report field (02 R25, R34, R36),
and the layouts of the three fields (13 Sections 13.1 and 13.3). -/

namespace Sys2Proof.Machine

/-! ### Reading a layout -/

theorem sliceAt_append_left {a : List Byte} {off n : Nat} (h : off + n ≤ a.length) (b : List Byte) :
    sliceAt (a ++ b) off n = sliceAt a off n := by
  unfold sliceAt
  rw [List.drop_append_of_le_length (by omega), List.take_append_of_le_length (by rw [List.length_drop]; omega)]

theorem sliceAt_append_right {a : List Byte} {off : Nat} (h : a.length ≤ off) (b : List Byte) (n : Nat) :
    sliceAt (a ++ b) off n = sliceAt b (off - a.length) n := by
  unfold sliceAt
  rw [List.drop_append, List.drop_eq_nil_of_le h, List.nil_append]

theorem sliceAt_whole {a : List Byte} {n : Nat} (h : a.length = n) : sliceAt a 0 n = a := by
  simp [sliceAt, ← h]

/-- The field that stands in a layout behind some bytes and before others. -/
theorem sliceAt_field (a f b : List Byte) {off n : Nat} (ha : a.length = off) (hf : f.length = n) :
    sliceAt (a ++ (f ++ b)) off n = f := by
  rw [sliceAt_append_right (by omega), ha, Nat.sub_self, sliceAt_append_left (by omega), sliceAt_whole hf]

/-- The number in a field of a layout. -/
theorem numAt_field (a b : List Byte) (x : Nat) {off n : Nat} (ha : a.length = off) :
    numAt (a ++ (leBytes n x ++ b)) off n = x % 256 ^ n := by
  rw [numAt, sliceAt_field a _ b ha (leBytes_length n x), fromLE_leBytes_mod]

/-- The signed number in a field of a layout. -/
theorem intAt_field (a b : List Byte) (x : Int) {off n : Nat} (ha : a.length = off) :
    intAt (a ++ (leBytesInt n x ++ b)) off n = Int.bmod x (256 ^ n) := by
  rw [intAt, sliceAt_field a _ b ha (leBytesInt_length n x), fromLEInt_leBytesInt]

/-- The field of one of four in a layout that holds the four one after the other. -/
theorem sliceAt_quad {α : Type} (f : α → List Byte) {n : Nat} (hf : ∀ x, (f x).length = n) (q : Quad α) (i : Fin 4)
    (a b : List Byte) : sliceAt (a ++ (q.toList.flatMap f ++ b)) (a.length + n * i) n = f (q.get i) := by
  have hlist : q.toList.flatMap f = f q.q0 ++ (f q.q1 ++ (f q.q2 ++ f q.q3)) := by simp [Quad.toList]
  rw [hlist]
  fin_cases i
  · simpa [Quad.get] using sliceAt_field a (f q.q0) (f q.q1 ++ (f q.q2 ++ (f q.q3 ++ b))) (off := a.length) rfl (hf _)
  · simpa [Quad.get] using sliceAt_field (a ++ f q.q0) (f q.q1) (f q.q2 ++ (f q.q3 ++ b)) (off := a.length + n) (by simp [hf]) (hf _)
  · simpa [Quad.get] using sliceAt_field (a ++ (f q.q0 ++ f q.q1)) (f q.q2) (f q.q3 ++ b) (off := a.length + n * 2)
      (by simp [hf]; omega) (hf _)
  · simpa [Quad.get] using sliceAt_field (a ++ (f q.q0 ++ (f q.q1 ++ f q.q2))) (f q.q3) b (off := a.length + n * 3)
      (by simp [hf]; omega) (hf _)

theorem bitsOf_lt (l : List Bool) : bitsOf l < 2 ^ l.length := by
  induction l with
  | nil => simp [bitsOf]
  | cons b l ih =>
    have hb : b.toNat ≤ 1 := Bool.toNat_le b
    simp only [bitsOf, List.length_cons, pow_succ]
    omega

/-! ### The stage gate -/

theorem gate_clear {q : Sequence} (h : q.stage = .safe ∨ q.stage = .disabling ∨ (q.stage = .enabling ∧ q.commanded = false))
    (c : Command) : gate q c = Command.clear := by
  rcases h with h | h | ⟨h, hc⟩ <;> simp [gate, *]

theorem gate_enable {q : Sequence} (h : (q.stage = .enabling ∧ q.commanded = true) ∨ q.stage = .energised ∨ q.stage = .applying)
    (c : Command) : gate q c = { enable := c.enable, release := false, setpoint := 0 } := by
  rcases h with ⟨h, hc⟩ | h | h <;> simp [gate, *]

theorem gate_releasing {q : Sequence} (h : q.stage = .releasing) (c : Command) :
    gate q c = { enable := c.enable, release := c.release, setpoint := 0 } := by
  simp [gate, h]

theorem gate_released {q : Sequence} (h : q.stage = .released) (c : Command) : gate q c = c := by
  simp [gate, h]

/-- The four outcomes of the gate (02 R31). -/
theorem gate_cases (q : Sequence) (c : Command) :
    gate q c = Command.clear ∨ gate q c = { enable := c.enable, release := false, setpoint := 0 }
      ∨ (q.stage = .releasing ∧ gate q c = { enable := c.enable, release := c.release, setpoint := 0 })
      ∨ (q.stage = .released ∧ gate q c = c) := by
  cases hst : q.stage with
  | safe => exact .inl (gate_clear (.inl hst) c)
  | disabling => exact .inl (gate_clear (.inr (.inl hst)) c)
  | enabling =>
    cases hc : q.commanded with
    | false => exact .inl (gate_clear (.inr (.inr ⟨hst, hc⟩)) c)
    | true => exact .inr (.inl (gate_enable (.inl ⟨hst, hc⟩) c))
  | energised => exact .inr (.inl (gate_enable (.inr (.inl hst)) c))
  | applying => exact .inr (.inl (gate_enable (.inr (.inr hst)) c))
  | releasing => exact .inr (.inr (.inl ⟨rfl, gate_releasing hst c⟩))
  | released => exact .inr (.inr (.inr ⟨rfl, gate_released hst c⟩))

/-- The gate only clears a command or replaces a setpoint by 0, so a written RELEASE comes from RELEASING or RELEASED, with ENABLE (02
R31). -/
theorem gate_only_clears (q : Sequence) (c : Command) :
    ((gate q c).enable = true → c.enable = true) ∧ ((gate q c).release = true → c.release = true)
      ∧ ((gate q c).setpoint = 0 ∨ (gate q c).setpoint = c.setpoint)
      ∧ ((gate q c).release = true → (c.release = true → c.enable = true) →
          (q.stage = .releasing ∨ q.stage = .released) ∧ (gate q c).enable = true) := by
  rcases gate_cases q c with h | h | ⟨hst, h⟩ | ⟨hst, h⟩ <;> rw [h]
  · simp [Command.clear]
  · simp
  · exact ⟨id, id, .inl rfl, fun hr hc => ⟨.inl hst, hc hr⟩⟩
  · exact ⟨id, id, .inr rfl, fun hr hc => ⟨.inr hst, hc hr⟩⟩

/-! ### The fields taken at START -/

/-- The Slot Engine works on a pass fixed in ACTIVE that is neither short nor cut (02 R25, R29, R36; 01 R7, R13). -/
theorem slotWork_iff (p : Pass) : p.slotWork = true ↔ p.mode = .active ∧ p.short = false ∧ p.cut = false := by
  unfold Pass.slotWork
  cases p.mode <;> simp

theorem slotWork_eq_false {p : Pass} (h : ¬ (p.mode = .active ∧ p.short = false ∧ p.cut = false)) : p.slotWork = false := by
  rwa [← slotWork_iff, Bool.not_eq_true] at h

theorem reaches_iff (p : Pass) (off : Nat) : reaches p off = true ↔ 5 + off < p.rx.length := by
  exact decide_eq_true_iff

theorem offsetsOf_present {s : State} {m : SlotMap} {i : Fin 4} {out inp : Nat} (hm : s.slot.positions = some m)
    (hi : m.slots.get i = .present out inp) : offsetsOf s i = some (out, inp) := by
  simp [offsetsOf, hm, hi]

theorem offsetsOf_absent {s : State} {m : SlotMap} {i : Fin 4} (hm : s.slot.positions = some m) (hi : m.slots.get i = .absent) :
    offsetsOf s i = none := by
  simp [offsetsOf, hm, hi]

theorem offsetsOf_no_map {s : State} (h : s.slot.positions = none) (i : Fin 4) : offsetsOf s i = none := by
  simp [offsetsOf, h]

theorem mem_four (i : Fin 4) : i ∈ four := by
  fin_cases i <;> simp [four]

/-- The first out-field is the one of lowest offset among the present rollers (02 R23, R29). -/
theorem firstOut_lowest {s : State} {m : SlotMap} {i : Fin 4} {out inp : Nat} (hm : s.slot.positions = some m)
    (hi : m.slots.get i = .present out inp) (hlow : ∀ j o n, m.slots.get j = .present o n → out ≤ o) : firstOut s = some out := by
  unfold firstOut
  rw [List.min?_eq_some_iff]
  refine ⟨List.mem_filterMap.mpr ⟨i, mem_four i, by rw [offsetsOf_present hm hi]; rfl⟩, fun o ho => ?_⟩
  obtain ⟨j, -, hj⟩ := List.mem_filterMap.mp ho
  cases hs : m.slots.get j with
  | absent => simp [offsetsOf_absent hm hs] at hj
  | present o' n =>
    obtain rfl : o' = o := by simpa [offsetsOf_present hm hs] using hj
    exact hlow j o' n hs

theorem firstOut_none {s : State} (h : ∀ i, offsetsOf s i = none) : firstOut s = none := by
  simp [firstOut, h]

/-! ### Out-fields -/

theorem outFieldBytes_length (c : Command) : (outFieldBytes c).length = 6 := by
  simp [outFieldBytes]

theorem latchFirst_latches {s : State} {p : Pass} {off : Nat} (hp : s.outPass = some p) (ho : firstOut s = some off)
    (hw : p.slotWork = true) (hr : reaches p off = true) :
    latchFirst s = { s with outPass := some { p with latched := some (latchedSet s p) } } := by
  simp [latchFirst, hp, ho, hw, hr]

/-- No set is latched where the part does not work on the pass, or the frame does not reach the field, or there is no field (01 R7, R8,
R13; 02 R23, R29). -/
theorem latchFirst_nothing {s : State}
    (h : ∀ p off, s.outPass = some p → firstOut s = some off → (p.slotWork && reaches p off) = false) : latchFirst s = s := by
  unfold latchFirst
  split
  · rename_i p off hp ho
    rw [h p off hp ho, if_neg Bool.false_ne_true]
  · rfl

/-- A field written within the frame makes the pass a written one (01 R3). -/
theorem Pass.write_within {p : Pass} {off : Nat} {bs : List Byte} (h : off < p.tx.length) (hb : bs ≠ []) :
    p.write off bs = { p with tx := patchAt p.tx off bs, written := true } := by
  simp [Pass.write, h, hb]

theorem passOutField_writes {s : State} {p : Pass} {i : Fin 4} {off n : Nat} (hp : s.outPass = some p)
    (ho : offsetsOf s i = some (off, n)) (hw : p.slotWork = true) (hr : reaches p off = true) (hl : p.tx.length = p.rx.length) :
    passOutField i s = { s with outPass := some { p with
      latched := some (latchedSet s p), written := true
      tx := patchAt p.tx (5 + off) (outFieldBytes (gate (s.rollers.get i).seq ((latchedSet s p).get i))) } } := by
  have hin : slotAreaAt + off < p.tx.length := by
    rw [hl]
    exact (reaches_iff p off).mp hr
  have hne (c : Command) : outFieldBytes c ≠ [] := List.ne_nil_of_length_pos (by simp [outFieldBytes_length])
  simp only [passOutField, hp, ho, hw, hr, Bool.and_self, if_true]
  rw [Pass.write_within (p := { p with latched := some (latchedSet s p) }) hin (hne _)]
  rfl

/-- No out-field is written where the part does not work on the pass, or the frame does not reach the field, or the roller is absent (01
R7, R8, R13; 02 R23). -/
theorem passOutField_nothing {s : State} {i : Fin 4}
    (h : ∀ p x, s.outPass = some p → offsetsOf s i = some x → (p.slotWork && reaches p x.1) = false) : passOutField i s = s := by
  unfold passOutField
  split
  · rename_i p off n hp ho
    rw [h p (off, n) hp ho, if_neg Bool.false_ne_true]
  · rfl

/-- The items of an out-field at their places (13 Section 13.1). -/
theorem outFieldBytes_layout (c : Command) :
    numAt (outFieldBytes c) 0 2 = c.enable.toNat + 2 * c.release.toNat
      ∧ intAt (outFieldBytes c) 2 4 = Int.bmod c.setpoint (2 ^ 32) := by
  constructor
  · have hbits : bitsOf [c.enable, c.release] = c.enable.toNat + 2 * c.release.toNat := by simp [bitsOf]
    have hlt := bitsOf_lt [c.enable, c.release]
    rw [← hbits]
    refine (numAt_field [] (leBytesInt 4 c.setpoint) (bitsOf [c.enable, c.release]) (n := 2) rfl).trans (Nat.mod_eq_of_lt ?_)
    simp at hlt
    omega
  · have h := intAt_field (leBytes 2 (bitsOf [c.enable, c.release])) [] c.setpoint (n := 4) (leBytes_length _ _)
    rwa [List.append_nil] at h

/-- Settles O20: the gate's table, the latch and the out-fields with the cases in which nothing is written, and the layout. -/
theorem outFieldsPassTheGate : Obligations.OutFieldsPassTheGate := by
  refine ⟨fun q c => ⟨fun h => gate_clear h c, fun h => gate_enable h c, fun h => gate_releasing h c, fun h => gate_released h c,
    gate_only_clears q c⟩, fun s p m hp hm => ?_, fun s h => ?_, fun c => ⟨outFieldBytes_length c, outFieldBytes_layout c⟩⟩
  · intro works set
    have hunreached (off : Nat) (hoff : p.rx.length ≤ 5 + off) : (p.slotWork && reaches p off) = false := by
      have hr : reaches p off = false := by
        rw [← Bool.not_eq_true, reaches_iff]
        omega
      rw [hr, Bool.and_false]
    have hthis {q : Pass} (hq : s.outPass = some q) : q = p := Option.some.inj (hq.symm.trans hp)
    refine ⟨fun i out inp hi hlow => ⟨fun hw hin => ?_, fun hoff => ?_⟩, fun i out inp hi => ⟨fun hw hl hin => ?_, fun hoff => ?_⟩,
      fun i hi => ?_, fun hall => ?_, fun hno => ⟨?_, fun i => ?_⟩⟩
    · exact congrArg Host.Outcome.next
        (latchFirst_latches hp (firstOut_lowest hm hi hlow) ((slotWork_iff p).mpr hw) ((reaches_iff p out).mpr hin))
    · refine congrArg Host.Outcome.next (latchFirst_nothing fun q off hq ho => ?_)
      obtain rfl := hthis hq
      obtain rfl : out = off := Option.some.inj ((firstOut_lowest hm hi hlow).symm.trans ho)
      exact hunreached out hoff
    · exact congrArg Host.Outcome.next
        (passOutField_writes hp (offsetsOf_present hm hi) ((slotWork_iff p).mpr hw) ((reaches_iff p out).mpr hin) hl)
    · refine congrArg Host.Outcome.next (passOutField_nothing fun q x hq hx => ?_)
      obtain rfl := hthis hq
      obtain rfl : (out, inp) = x := Option.some.inj ((offsetsOf_present hm hi).symm.trans hx)
      exact hunreached out hoff
    · refine congrArg Host.Outcome.next (passOutField_nothing fun q x hq hx => ?_)
      rw [offsetsOf_absent hm hi] at hx
      cases hx
    · refine congrArg Host.Outcome.next (latchFirst_nothing fun q off hq ho => ?_)
      rw [firstOut_none fun i => offsetsOf_absent hm (hall i)] at ho
      cases ho
    · refine congrArg Host.Outcome.next (latchFirst_nothing fun q off hq _ => ?_)
      obtain rfl := hthis hq
      rw [slotWork_eq_false hno, Bool.false_and]
    · refine congrArg Host.Outcome.next (passOutField_nothing fun q x hq _ => ?_)
      obtain rfl := hthis hq
      rw [slotWork_eq_false hno, Bool.false_and]
  · refine ⟨congrArg Host.Outcome.next (latchFirst_nothing fun q off hq ho => ?_), fun i =>
      congrArg Host.Outcome.next (passOutField_nothing fun q x hq hx => ?_)⟩
    · rcases h with h | h
      · simp [h] at hq
      · rw [firstOut_none (offsetsOf_no_map h)] at ho
        cases ho
    · rcases h with h | h
      · simp [h] at hq
      · rw [offsetsOf_no_map h] at hx
        cases hx

/-! ### In-fields and the report field -/

theorem passInField_fills {s : State} {p : Pass} {i : Fin 4} {o off : Nat} (hp : s.retPass = some p)
    (ho : offsetsOf s i = some (o, off)) (hw : p.slotWork = true) (hr : 5 + off + 10 ≤ p.rx.length) :
    passInField i s = { s with slot := { s.slot with
      buffers := s.slot.buffers.set i (some (sampleOf (sliceAt p.rx (5 + off) 10))) } } := by
  have hin : decide (slotAreaAt + off + inFieldLen ≤ p.rx.length) = true := decide_eq_true hr
  have hpass : passInField i s = s.onSlot fun x =>
      { x with buffers := x.buffers.set i (some (sampleOf (sliceAt p.rx (slotAreaAt + off) inFieldLen))) } := by
    simp only [passInField, hp, ho, hw, hin, Bool.and_self, if_true]
  exact hpass

/-- No sample is buffered where the part does not work on the pass, the frame ends before the field does, or the roller is absent (01 R7,
R8, R13; 02 R23, R25). -/
theorem passInField_nothing {s : State} {i : Fin 4}
    (h : ∀ p x, s.retPass = some p → offsetsOf s i = some x → p.slotWork = false ∨ p.rx.length < 5 + x.2 + 10) :
    passInField i s = s := by
  unfold passInField
  split
  · rename_i p o off hp ho
    rw [if_neg]
    rw [Bool.and_eq_true, decide_eq_true_eq]
    rintro ⟨hw, hin⟩
    rcases h p (o, off) hp ho with hno | hshort
    · simp [hno] at hw
    · simp [slotAreaAt, inFieldLen] at hin hshort
      omega
  · rfl

theorem reportBytes_ne_nil (im : ReportImage) : reportBytes im ≠ [] := by
  simp [reportBytes, leBytes]

theorem passReport_writes {s : State} {p : Pass} {off : Nat} {im : ReportImage} (hp : s.retPass = some p)
    (ho : reportAt s = some off) (hi : s.slot.image = some im) (hw : p.slotWork = true) (hr : reaches p off = true)
    (hl : p.tx.length = p.rx.length) :
    passReport s = { s with retPass := some { p with tx := patchAt p.tx (5 + off) (reportBytes im), written := true } } := by
  have hin : slotAreaAt + off < p.tx.length := by
    rw [hl]
    exact (reaches_iff p off).mp hr
  simp only [passReport, hp, ho, hi, hw, hr, Bool.and_self, if_true]
  rw [Pass.write_within hin (reportBytes_ne_nil im)]
  rfl

/-- No report is written where the part does not work on the pass, the frame does not reach the field, or there is no offset or no image
(01 R7, R8, R13; 02 R23, R33, R36). -/
theorem passReport_nothing {s : State}
    (h : ∀ p off im, s.retPass = some p → reportAt s = some off → s.slot.image = some im → (p.slotWork && reaches p off) = false) :
    passReport s = s := by
  unfold passReport
  split
  · rename_i p off im hp ho hi
    rw [h p off im hp ho hi, if_neg Bool.false_ne_true]
  · rfl

/-- The first eight bytes of the report field: what is the same for the whole part (13 Section 13.3). -/
def reportHead (im : ReportImage) : List Byte :=
  leBytes 1 2 ++ (leBytes 1 (4 * im.freeze.toNat) ++ (leBytes 1 im.pendingCount ++ (leBytes 1 (summaryByte im.summary) ++ leBytes 4 im.cycle)))

theorem reportHead_length (im : ReportImage) : (reportHead im).length = 8 := by
  simp [reportHead]

/-- The report field: the head, a byte per group, a speed per group (13 Section 13.3). -/
theorem reportBytes_eq (im : ReportImage) :
    reportBytes im = reportHead im ++ (im.groups.toList.flatMap (fun v => leBytes 1 (groupByte v))
      ++ im.speeds.toList.flatMap (fun v => leBytesInt 3 v)) := by
  simp [reportBytes, reportHead, opStateCode]

theorem reportBytes_length (im : ReportImage) : (reportBytes im).length = 24 := by
  simp [reportBytes, Quad.toList]

/-- A group state byte is a byte (13 Section 13.2). -/
theorem groupByte_lt (v : GroupView) : groupByte v < 256 := by
  have hstate : groupStateCode v.state ≤ 7 := by cases v.state <;> simp [groupStateCode]
  have hcause : causeCode v.cause ≤ 3 := by cases v.cause <;> simp [causeCode]
  have hdir : dirCode v.dir ≤ 3 := by cases v.dir <;> simp [dirCode]
  have hwind : v.windDown.toNat ≤ 1 := Bool.toNat_le _
  unfold groupByte
  split <;> omega

/-- The items of the report field that are the same for the whole part, at their places (13 Section 13.3). -/
theorem reportBytes_head (im : ReportImage) :
    numAt (reportBytes im) 0 1 = 2 ∧ numAt (reportBytes im) 1 1 = (if im.freeze then 4 else 0)
      ∧ numAt (reportBytes im) 2 1 = im.pendingCount % 256 ∧ numAt (reportBytes im) 3 1 = summaryByte im.summary
      ∧ numAt (reportBytes im) 4 4 = im.cycle % 2 ^ 32 := by
  have hsum : summaryByte im.summary < 256 := lt_trans (bitsOf_lt _) (by simp)
  simp only [reportBytes_eq, reportHead, List.append_assoc]
  refine ⟨numAt_field [] _ _ rfl, ?_, ?_, ?_, ?_⟩
  · refine (numAt_field (leBytes 1 2) _ _ rfl).trans ?_
    cases im.freeze <;> rfl
  · exact numAt_field (leBytes 1 2 ++ leBytes 1 (4 * im.freeze.toNat)) _ _ rfl
  · exact (numAt_field (leBytes 1 2 ++ leBytes 1 (4 * im.freeze.toNat) ++ leBytes 1 im.pendingCount) _ _ rfl).trans (Nat.mod_eq_of_lt hsum)
  · exact numAt_field
      (leBytes 1 2 ++ leBytes 1 (4 * im.freeze.toNat) ++ leBytes 1 im.pendingCount ++ leBytes 1 (summaryByte im.summary)) _ _ rfl

/-- The state byte and the speed of each group in the report field (13 Section 13.3). -/
theorem reportBytes_group (im : ReportImage) (g : Fin 4) :
    numAt (reportBytes im) (8 + g) 1 = groupByte (im.groups.get g)
      ∧ intAt (reportBytes im) (12 + 3 * g) 3 = Int.bmod (im.speeds.get g) (2 ^ 24) := by
  constructor
  · have h := sliceAt_quad (fun v => leBytes 1 (groupByte v)) (fun _ => leBytes_length 1 _) im.groups g (reportHead im)
      (im.speeds.toList.flatMap fun v => leBytesInt 3 v)
    rw [reportHead_length, one_mul, ← reportBytes_eq] at h
    rw [numAt, h]
    exact fromLE_leBytes 1 _ (groupByte_lt _)
  · have h := sliceAt_quad (fun v => leBytesInt 3 v) (fun _ => leBytesInt_length 3 _) im.speeds g
      (reportHead im ++ im.groups.toList.flatMap fun v => leBytes 1 (groupByte v)) []
    have hlen : (reportHead im ++ im.groups.toList.flatMap fun v => leBytes 1 (groupByte v)).length = 12 := by
      simp [reportHead_length, Quad.toList]
    rw [hlen, List.append_nil, List.append_assoc, ← reportBytes_eq] at h
    rw [intAt, h]
    exact fromLEInt_leBytesInt 3 _

/-- Settles O21: the two kinds of field with the cases in which nothing is exchanged, and the two layouts. -/
theorem returnFieldsExchanged : Obligations.ReturnFieldsExchanged := by
  refine ⟨fun s p m hp hm => ?_, fun s h => ?_, fun bs => rfl, fun im => ?_⟩
  · intro works
    have hthis {q : Pass} (hq : s.retPass = some q) : q = p := Option.some.inj (hq.symm.trans hp)
    have hreport : reportAt s = m.report := by simp [reportAt, hm]
    refine ⟨fun i out inp hi => ⟨fun hw hin => ?_, fun hoff => ?_⟩, fun i hi => ?_,
      fun off im ho him => ⟨fun hw hl hin => ?_, fun hoff => ?_⟩, fun h => ?_, fun hno => ⟨?_, fun i => ?_⟩⟩
    · exact congrArg Host.Outcome.next (passInField_fills hp (offsetsOf_present hm hi) ((slotWork_iff p).mpr hw) hin)
    · refine congrArg Host.Outcome.next (passInField_nothing fun q x hq hx => .inr ?_)
      obtain rfl := hthis hq
      obtain rfl : (out, inp) = x := Option.some.inj ((offsetsOf_present hm hi).symm.trans hx)
      exact hoff
    · refine congrArg Host.Outcome.next (passInField_nothing fun q x hq hx => ?_)
      rw [offsetsOf_absent hm hi] at hx
      cases hx
    · exact congrArg Host.Outcome.next
        (passReport_writes hp (hreport.trans ho) him ((slotWork_iff p).mpr hw) ((reaches_iff p off).mpr hin) hl)
    · refine congrArg Host.Outcome.next (passReport_nothing fun q o x hq hoff' _ => ?_)
      obtain rfl := hthis hq
      obtain rfl : off = o := Option.some.inj ((hreport.trans ho).symm.trans hoff')
      have hr : reaches q off = false := by
        rw [← Bool.not_eq_true, reaches_iff]
        omega
      rw [hr, Bool.and_false]
    · refine congrArg Host.Outcome.next (passReport_nothing fun q o x _ ho hx => ?_)
      rcases h with h | h
      · rw [hreport, h] at ho
        cases ho
      · rw [h] at hx
        cases hx
    · refine congrArg Host.Outcome.next (passReport_nothing fun q o x hq _ _ => ?_)
      obtain rfl := hthis hq
      rw [slotWork_eq_false hno, Bool.false_and]
    · refine congrArg Host.Outcome.next (passInField_nothing fun q x hq _ => .inl ?_)
      obtain rfl := hthis hq
      exact slotWork_eq_false hno
  · refine ⟨congrArg Host.Outcome.next (passReport_nothing fun q o x hq ho _ => ?_), fun i =>
      congrArg Host.Outcome.next (passInField_nothing fun q x hq hx => ?_)⟩
    · rcases h with h | h
      · simp [h] at hq
      · simp [reportAt, h] at ho
    · rcases h with h | h
      · simp [h] at hq
      · rw [offsetsOf_no_map h] at hx
        cases hx
  · obtain ⟨hop, hfreeze, hpending, hsummary, hcycle⟩ := reportBytes_head im
    refine ⟨reportBytes_length im, hop, hfreeze, hpending, fun n => ?_, hcycle, reportBytes_group im⟩
    simp only [hsummary]
    exact bitsOf_testBit _ n

end Sys2Proof.Machine
end

section
/-! SUPPORT. The report image and the trace record item by item (02 R34, R35; 11 R175), publication at each roller (05 R92, R93; 06 R104), and
what an accepted cycle leaves (01 R17). -/

namespace Sys2Proof.Machine

/-! ### The report image -/

theorem LineFlags.any_iff (f : LineFlags) : f.toList.any id = true ↔ f ≠ LineFlags.none := by
  obtain ⟨a, b, c, d, e, f, g, h⟩ := f
  revert a b c d e f g h
  decide

theorem RollerFlags.any_iff (f : RollerFlags) : f.toList.any id = true ↔ f ≠ RollerFlags.none := by
  obtain ⟨a, b, c, d, e⟩ := f
  revert a b c d e
  decide

theorem GroupFlags.any_iff (f : GroupFlags) : f.toList.any id = true ↔ f ≠ GroupFlags.none := by
  obtain ⟨a, b, c, d⟩ := f
  revert a b c d
  decide

theorem TableFlags.any_iff (f : TableFlags) : f.toList.any id = true ↔ f ≠ TableFlags.none := by
  obtain ⟨a, b, c⟩ := f
  revert a b c
  decide

theorem Latch.isSet_iff (l : Latch) : l.isSet = true ↔ l ≠ Latch.clear := by
  obtain ⟨a, b, c, d⟩ := l
  revert a b c d
  decide

/-- Some of four things passes a test. -/
theorem Quad.any_toList {α : Type} (q : Quad α) (p : α → Bool) : q.toList.any p = true ↔ ∃ i, p (q.get i) = true := by
  rw [List.any_eq_true]
  constructor
  · rintro ⟨x, hx, hp⟩
    obtain ⟨i, rfl⟩ := (Quad.mem_toList q x).mp hx
    exact ⟨i, hp⟩
  · rintro ⟨i, hp⟩
    exact ⟨_, (Quad.mem_toList q _).mpr ⟨i, rfl⟩, hp⟩

theorem inFreeze_iff (s : State) : inFreeze s = true ↔ s.lpu.opState ≠ .starting ∧ s.cert = true ∧ s.tables.freezeFlag = true := by
  unfold inFreeze
  cases s.lpu.opState <;> simp

/-- A report image shows the state it is formed from, item by item (02 R34, R35). -/
theorem imageOf_shows (e : Nat) (s : State) : ImageShows e s (imageOf e s) := by
  refine ⟨inFreeze_iff s, rfl, rfl, fun g => Quad.get_mapIdx _ _ g, fun g => Quad.get_mapIdx _ _ g, LineFlags.any_iff _, ?_, ?_, ?_,
    TableFlags.any_iff _, Iff.rfl, ?_⟩
  · simp only [imageOf, summaryOf, Quad.any_toList, RollerFlags.any_iff]
  · simp only [imageOf, summaryOf, Quad.any_toList, Latch.isSet_iff]
  · simp only [imageOf, summaryOf, Quad.any_toList, GroupFlags.any_iff]
  · simp only [imageOf, summaryOf, Bool.or_eq_true]

/-- A trace record shows the selected group and the rollers as the state stands, item by item (11 R175; log 15). -/
theorem traceRecordOf_shows (e : Nat) (s : State) : RecordShows e s (traceRecordOf e s) := by
  have hroller (i : Fin 4) : (traceRecordOf e s).rollers.get i = {
      speed := (s.rollers.get i).chan.speed, setpoint := (s.slot.current.get i).setpoint
      error := errorMicrons (s.rollers.get i).coup.error } := Quad.get_of _ i
  refine ⟨rfl, rfl, rfl, rfl, rfl, rfl, fun i => ?_, fun i => ?_⟩
  · simp [traceRecordOf, isMember]
  · rw [hroller]
    refine ⟨rfl, rfl, fun h => ?_, fun x h => ?_⟩
    · simp [errorMicrons, h]
    · simp [errorMicrons, h, clampAbs, clampAround]

/-! ### Publication -/

/-- The test of a held apply (06 R104). -/
theorem testApply_eq (band : Nat) (r : Roller) :
    testApply band r =
      if r.seq.stage = .released ∧ r.seq.held = .apply ∧ r.coup.prevSet = 0 ∧ r.chan.speed.natAbs ≤ band then
        { r with seq := enterTimed .applying } else r := by
  unfold testApply
  split
  · rename_i hst hheld
    simp [hst, hheld, atRest]
  · rename_i hno
    rw [if_neg]
    rintro ⟨hst, hheld, -⟩
    exact hno hst hheld

theorem publish_rollers (outs : Quad Int) (s : State) (i : Fin 4) :
    (publish outs s).rollers.get i = testApply (bandOf s)
      { s.rollers.get i with
        coup := { (s.rollers.get i).coup with prevSet := outs.get i }, published := (s.rollers.get i).seq.stage } :=
  Quad.get_mapIdx _ _ i

theorem setOf_get (outs : Quad Int) (s : State) (i : Fin 4) :
    (setOf s outs).get i = {
      enable := (controlOf (s.rollers.get i).seq).1, release := (controlOf (s.rollers.get i).seq).2, setpoint := outs.get i } :=
  Quad.get_of _ i

theorem publish_frame (outs : Quad Int) (s : State) :
    publish outs s = { s with
      slot := { s.slot with current := (publish outs s).slot.current }, rollers := (publish outs s).rollers } := rfl

theorem controlOf_release (q : Sequence) : (controlOf q).2 = true ↔ q.stage = .releasing ∨ q.stage = .released := by
  unfold controlOf
  cases q.stage <;> simp

theorem controlOf_enable_off {q : Sequence} (h : q.stage = .safe ∨ q.stage = .disabling) : (controlOf q).1 = false := by
  rcases h with h | h <;> simp [controlOf, h]

/-! ### The channels -/

/-- One step of the order in which the channels take a cycle: a roller named before is not named again (log 8). -/
def nameOnce (acc : List (Fin 4)) (i : Fin 4) : List (Fin 4) := if acc.contains i then acc else acc ++ [i]

theorem mem_nameOnce (acc : List (Fin 4)) (i j : Fin 4) : j ∈ nameOnce acc i ↔ j ∈ acc ∨ j = i := by
  unfold nameOnce
  split
  · rename_i h
    constructor
    · exact .inl
    · rintro (hj | rfl)
      · exact hj
      · exact List.contains_iff_mem.mp h
  · simp

theorem nodup_nameOnce {acc : List (Fin 4)} (h : acc.Nodup) (i : Fin 4) : (nameOnce acc i).Nodup := by
  unfold nameOnce
  split
  · exact h
  · rename_i hi
    rw [List.nodup_append]
    refine ⟨h, List.nodup_singleton i, fun a ha b hb => ?_⟩
    obtain rfl := List.mem_singleton.mp hb
    rintro rfl
    exact hi (List.contains_iff_mem.mpr ha)

theorem foldl_nameOnce (l acc : List (Fin 4)) :
    (acc.Nodup → (l.foldl nameOnce acc).Nodup) ∧ ∀ j, j ∈ acc ∨ j ∈ l → j ∈ l.foldl nameOnce acc := by
  induction l generalizing acc with
  | nil => simp
  | cons i l ih =>
    obtain ⟨hnodup, hmem⟩ := ih (nameOnce acc i)
    refine ⟨fun h => hnodup (nodup_nameOnce h i), fun j hj => hmem j ?_⟩
    rw [mem_nameOnce]
    simpa [or_assoc] using hj

/-- Every channel takes the cycle once, whatever the order (log 8). -/
theorem channelOrder_once (order : List (Fin 4)) : (channelOrder order).Nodup ∧ ∀ i, i ∈ channelOrder order := by
  obtain ⟨hnodup, hmem⟩ := foldl_nameOnce (order ++ four) []
  exact ⟨hnodup List.nodup_nil, fun i => hmem i (.inr (List.mem_append_right _ (mem_four i)))⟩

/-- A roller as the stage work finds it after its measurement: forced SAFE where the measurement raised a hard fault (03 R54). -/
def measuredRoller (m : Measured) (r : Roller) : Roller :=
  if m.fault then { r with chan := m.chan, seq := Sequence.safe } else { r with chan := m.chan }

theorem takeSample_eq (k : Nat) (resync : Bool) (cfg : RollersEntry) (t band : Nat) (sm : Sample) (r : Roller) :
    takeSample k resync cfg t band sm r =
      let m := measure cfg t k resync sm r.chan
      let w := stageWork cfg.stageTimeout band k (if m.usable then some sm.status else none) (measuredRoller m r)
      (w.1, m.fault || w.2) := by
  simp only [takeSample, measuredRoller]
  cases (measure cfg t k resync sm r.chan).fault <;> rfl

theorem channelTakes_empty {k : Nat} {resync : Bool} {i : Fin 4} {s : State} (h : s.slot.buffers.get i = none) :
    channelTakes k resync i s = s := by
  simp [channelTakes, h]

theorem channelTakes_sample {k : Nat} {resync : Bool} {i : Fin 4} {s : State} {sm : Sample} (h : s.slot.buffers.get i = some sm) :
    channelTakes k resync i s =
      let w := takeSample k resync (s.tables.active.rollers.get i) (periodOf s) (bandOf s) sm (s.rollers.get i)
      if w.2 then hardFaultEvent i { s with rollers := s.rollers.set i w.1 } else { s with rollers := s.rollers.set i w.1 } := by
  unfold channelTakes
  rw [h]
  rfl

theorem hardFaultEvent_none {i : Fin 4} {s : State} (h : groupOfRoller s.tables.active i = none) : hardFaultEvent i s = s := by
  simp [hardFaultEvent, h]

theorem hardFaultEvent_some {i g : Fin 4} {s : State} (h : groupOfRoller s.tables.active i = some g) :
    hardFaultEvent i s = groupFault g s := by
  simp [hardFaultEvent, h]

/-! ### What an accepted cycle leaves -/

/-- What the Table Manager's work leaves as it was. -/
theorem OnlyApplied.fields {s t : State} (h : OnlyApplied s t) :
    t.powered = s.powered ∧ t.resetLine = s.resetLine ∧ t.cert = s.cert ∧ t.lpu = s.lpu ∧ t.outPass = s.outPass ∧ t.retPass = s.retPass
      ∧ t.sentD = s.sentD ∧ t.sentM = s.sentM ∧ t.slot = s.slot ∧ t.svc = s.svc ∧ t.trace = s.trace ∧ t.store = s.store
      ∧ t.pending = s.pending := by
  unfold OnlyApplied at h
  rw [h]
  simp

/-- A roller of no group keeps its setpoint through a group's composition (05 R91). -/
theorem composeGroup_setpoint {g i : Fin 4} {k : Nat} {sp : State × Quad Int} (h : groupOfRoller sp.1.tables.active i = none) :
    (composeGroup g k sp).2.get i = sp.2.get i := by
  have htables : (checkTrack g k sp.1).tables = sp.1.tables := by
    obtain ⟨-, -, -, -, -, -, -, -, -, htables, -⟩ := (checkTrack_onlyMotion g k sp.1).fields
    exact htables
  have hm : isMember sp.1.tables.active g i = false := by
    rw [← Bool.not_eq_true, isMember_iff, h]
    simp
  simp [composeGroup, htables, hm]

theorem groupTakes_setpoint {g i : Fin 4} {k : Nat} {sp : State × Quad Int} (h : groupOfRoller sp.1.tables.active i = none) :
    groupOfRoller (groupTakes k g sp).1.tables.active i = none ∧ (groupTakes k g sp).2.get i = sp.2.get i := by
  obtain ⟨-, -, -, -, -, -, -, -, -, hall, -⟩ := (groupTakes_onlyMotion k g sp).fields
  obtain ⟨-, -, -, -, -, -, -, -, -, hstep, -⟩ := (stepGroup_onlyMotion g k sp.1).fields
  refine ⟨by rwa [hall], ?_⟩
  unfold groupTakes
  rw [composeGroup_setpoint (by rwa [hstep])]

/-- A roller of no group has setpoint 0 (05 R91). -/
theorem groupsTake_setpoint {i : Fin 4} (k : Nat) {s : State} (h : groupOfRoller s.tables.active i = none) :
    (groupsTake k s).2.get i = 0 := by
  obtain ⟨h0, e0⟩ := groupTakes_setpoint (g := 0) (k := k) (sp := (s, Quad.all 0)) h
  obtain ⟨h1, e1⟩ := groupTakes_setpoint (g := 1) (k := k) h0
  obtain ⟨h2, e2⟩ := groupTakes_setpoint (g := 2) (k := k) h1
  obtain ⟨-, e3⟩ := groupTakes_setpoint (g := 3) (k := k) h2
  unfold groupsTake
  rw [e3, e2, e1, e0, Quad.get_all]

/-- The state and the setpoints an accepted cycle publishes: tables, channels and groups have worked (01 R17). -/
def composedCycle (order : List (Fin 4)) (e k : Nat) (resync : Bool) (s : State) : State × Quad Int :=
  groupsTake k (channelsTake order k resync (tableWork e s))

theorem acceptedCycle_eq (order : List (Fin 4)) (e k : Nat) (resync : Bool) (s : State) :
    acceptedCycle order e k resync s = formImage e (traceWork e
      (publish (composedCycle order e k resync s).2 (composedCycle order e k resync s).1)) := rfl

/-- After the channels every in-field buffer is empty, and the groups leave the Slot Engine alone (02 R26). -/
theorem composedCycle_slot (order : List (Fin 4)) (e k : Nat) (resync : Bool) (s : State) :
    (composedCycle order e k resync s).1.slot.buffers = Quad.all none
      ∧ (composedCycle order e k resync s).1.slot.positions = s.slot.positions := by
  obtain ⟨-, -, -, -, -, -, -, -, hgroups, -⟩ := (groupsTake_onlyMotion k (channelsTake order k resync (tableWork e s))).fields
  obtain ⟨u, hu, hchannels⟩ := channelsTake_frame order k resync (tableWork e s)
  obtain ⟨-, -, -, -, -, -, -, -, hslot, -⟩ := hu.fields
  obtain ⟨-, -, -, -, -, -, -, -, htables, -⟩ := (tableWork_onlyApplied e s).fields
  unfold composedCycle
  rw [hgroups, hchannels]
  refine ⟨rfl, ?_⟩
  show u.slot.positions = _
  rw [hslot, htables]

theorem composedCycle_setpoint {i : Fin 4} (order : List (Fin 4)) (e k : Nat) (resync : Bool) (s : State)
    (h : groupOfRoller (composedCycle order e k resync s).1.tables.active i = none) :
    (composedCycle order e k resync s).2.get i = 0 := by
  unfold composedCycle at h ⊢
  generalize channelsTake order k resync (tableWork e s) = u at h ⊢
  obtain ⟨-, -, -, -, -, -, -, -, -, htables, -⟩ := (groupsTake_onlyMotion k u).fields
  rw [htables] at h
  exact groupsTake_setpoint k h

/-- The trace and the report image leave what publication has left of rollers, tables and the set (11 R174, 02 R34). -/
theorem acceptedCycle_published (order : List (Fin 4)) (e k : Nat) (resync : Bool) (s : State) :
    let t := acceptedCycle order e k resync s
    let sp := composedCycle order e k resync s
    t.rollers = (publish sp.2 sp.1).rollers ∧ t.slot.current = setOf sp.1 sp.2 ∧ t.slot.buffers = sp.1.slot.buffers
      ∧ t.slot.positions = sp.1.slot.positions ∧ t.tables = sp.1.tables := by
  simp only [acceptedCycle_eq]
  generalize composedCycle order e k resync s = sp
  rw [traceWork_only]
  exact ⟨rfl, rfl, rfl, rfl, rfl⟩

/-- The set an accepted cycle leaves, roller by roller (05 R91, R92, R93). -/
theorem acceptedCycle_set (order : List (Fin 4)) (e k : Nat) (resync : Bool) (s : State) (i : Fin 4) :
    let t := acceptedCycle order e k resync s
    (t.rollers.get i).coup.prevSet = (t.slot.current.get i).setpoint
      ∧ ((t.slot.current.get i).release = true ↔ ((t.rollers.get i).published = .releasing ∨ (t.rollers.get i).published = .released))
      ∧ (((t.rollers.get i).published = .safe ∨ (t.rollers.get i).published = .disabling) → (t.slot.current.get i).enable = false)
      ∧ (groupOfRoller t.tables.active i = none → (t.slot.current.get i).setpoint = 0) := by
  intro t
  obtain ⟨hrollers, hcurrent, -, -, htables⟩ := acceptedCycle_published order e k resync s
  have hset := setOf_get (composedCycle order e k resync s).2 (composedCycle order e k resync s).1 i
  rw [← hcurrent] at hset
  have hprev := publish_prevSet (composedCycle order e k resync s).2 (composedCycle order e k resync s).1 i
  have hpub := publish_published (composedCycle order e k resync s).2 (composedCycle order e k resync s).1 i
  rw [← hrollers] at hprev hpub
  rw [hprev, hpub, hset, htables]
  exact ⟨rfl, controlOf_release _, controlOf_enable_off, composedCycle_setpoint order e k resync s⟩

/-- Settles O28: the cycle's order and what it leaves, publication roller by roller, a channel's sample, and a group's step and
composition. -/
theorem acceptedCyclePublishes : Obligations.AcceptedCyclePublishes := by
  refine ⟨fun order e k resync s => ?_, fun order e k resync s => ?_, fun outs s => ⟨publish_frame outs s, fun i => ⟨?_, ?_⟩⟩,
    fun k resync i s => ⟨channelTakes_empty, fun sm hsm => ?_⟩, fun g k s outs => ⟨rfl, rfl, fun i => Quad.get_of _ i⟩⟩
  · obtain ⟨-, -, hbuffers, hpositions, -⟩ := acceptedCycle_published order e k resync s
    obtain ⟨hempty, hkept⟩ := composedCycle_slot order e k resync s
    have hset := acceptedCycle_set order e k resync s
    exact ⟨⟨_, acceptedCycle_image order e k resync s, imageOf_shows e _⟩, hbuffers.trans hempty, hpositions.trans hkept,
      fun i => (hset i).1, fun i => (hset i).2.1, fun i => (hset i).2.2.1, fun i => (hset i).2.2.2,
      acceptedCycle_only order e k resync s⟩
  · obtain ⟨hnodup, hmem⟩ := channelOrder_once order
    exact ⟨rfl, traceRecordOf_shows e _, hnodup, hmem⟩
  · rw [publish_current, setOf_get]
    unfold controlOf
    cases (s.rollers.get i).seq.stage <;> rfl
  · rw [publish_rollers, testApply_eq]
    rfl
  · intro m w u
    have htakes := channelTakes_sample (k := k) (resync := resync) hsm
    simp only [takeSample_eq] at htakes
    have hfault (h : m.fault = true ∨ w.2 = true) : channelTakes k resync i s = hardFaultEvent i u := by
      refine htakes.trans (if_pos ?_)
      rwa [Bool.or_eq_true]
    refine ⟨fun hm hw => htakes.trans (if_neg ?_), fun h => ⟨fun hno => ?_, fun g hg => ?_⟩⟩
    · rw [Bool.or_eq_true]
      rintro (h | h)
      · exact Bool.false_ne_true (hm.symm.trans h)
      · exact Bool.false_ne_true (hw.symm.trans h)
    · rw [hfault h, hardFaultEvent_none (s := u) hno]
    · rw [hfault h, hardFaultEvent_some (s := u) hg]

end Sys2Proof.Machine
end

section
/-! SUPPORT. A request that its row serves, with the reply it leaves (10 R163; log 9), and START: the run it begins and the start check (01 R10,
08 R133 to R137). -/

namespace Sys2Proof.Machine

open Sys2Proof.Laws

/-! ### A request served at its row -/

/-- The kind of a request tells which of the eighteen it is (13 Section 13.4). -/
theorem kind_of_requestOf {kind : Byte} {payload : List Byte} {r : Request} (h : requestOf kind payload = some r) :
    kind = kindOf r := by
  refine BitVec.eq_of_toNat_eq ?_
  unfold requestOf at h
  split at h
  all_goals first | (obtain rfl := Option.some.inj h; assumption) | cases h

theorem restart_of_kindOf {r : Request} (h : kindOf r = 18) : r = .restart := by
  cases r <;> simp [kindOf] at h ⊢

/-- The entry a row answers holds the row's request, and its owner has not answered it. -/
theorem entryFor_spec {r : Request} {s : State} {e : ReplyEntry} (h : entryFor r s = some e) :
    e.answer = none ∧ requestOf e.kind e.payload = some r := by
  simpa using List.find?_some h

/-- Only an accepted RESTART notes its entry (12 R184). -/
theorem linkRestart_of_not_restart {e : ReplyEntry} {rep : Reply} (h : ¬ (e.kind = 18 ∧ rep.code = .accepted)) (s : State) :
    linkRestart e rep s = s := by
  rw [linkRestart, if_neg h]

theorem bare_answered (id : Nat) (a : Option Reply) (l : List ReplyEntry) :
    (l.map fun e => if e.id = id then { e with answer := a } else e).map ReplyEntry.bare = l.map ReplyEntry.bare := by
  rw [List.map_map]
  refine List.map_congr_left fun e _ => ?_
  simp only [Function.comp_apply]
  split <;> rfl

/-- A row gives its owner's reply, and the state its owner leaves but for the answers (10 R163; log 9). -/
theorem serveRow_replied {r : Request} {s : State} (h : takesRequests s = true)
    (hr : r = .restart → (own r s).1.code ≠ .accepted) : Replied (own r s).1 (own r s).2 (serveRow r s) := by
  unfold serveRow
  rw [if_pos h]
  simp only
  split
  · rename_i e he
    have hnot : ¬ (e.kind = 18 ∧ (serveNow r s).1.code = .accepted) := by
      rintro ⟨hk, ha⟩
      have hkind := kind_of_requestOf (entryFor_spec he).2
      exact hr (restart_of_kindOf (hkind.symm.trans hk)) ha
    rw [linkRestart_of_not_restart hnot]
    exact ⟨rfl, ⟨bare_answered _ _ _, bare_answered _ _ _, rfl, rfl⟩, rfl⟩
  · exact ⟨rfl, ⟨rfl, rfl, rfl, rfl⟩, rfl⟩

/-- A request row of a part that takes requests, by what its owner gives. -/
theorem exec_replied {c : Instr} {r : Request} {s u : State} {rep : Reply} (hc : requestIn c = some r)
    (h : takesRequests s = true) (hown : own r s = (rep, u)) (hr : r ≠ .restart) :
    ∃ t, exec c s = .next t ∧ Replied rep u t := by
  refine ⟨_, exec_request hc s, ?_⟩
  have hreplied := serveRow_replied (r := r) h (fun h => absurd h hr)
  rwa [hown] at hreplied

/-! ### The start check -/

theorem inRange_iff (lo hi x : Nat) : inRange lo hi x = true ↔ lo ≤ x ∧ x ≤ hi := by
  simp [inRange]

theorem periodOk_iff (t : Nat) : periodOk t = true ↔ t = 250 ∨ t = 500 ∨ t = 1000 ∨ t = 2000 ∨ t = 4000 := by
  simp [periodOk]

/-- The entry check is the ranges of R133 to R135. -/
theorem entryCheck_iff (e : Entry) : entryCheck e = true ↔ entryInRange e := by
  cases e with
  | cell e =>
    cases h : e.report <;>
      simp [entryCheck, cellCheck, entryInRange, inRange_iff, periodOk_iff, h, and_assoc]
  | slots e => cases e <;> simp [entryCheck, slotsCheck, entryInRange, inRange_iff]
  | rollers e =>
    cases h : e.group <;>
      simp [entryCheck, rollersCheck, entryInRange, inRange_iff, h, and_assoc]
  | groups e =>
    simp only [entryCheck, groupsCheck, entryInRange, Bool.and_eq_true, inRange_iff, Nat.zero_le, true_and, and_assoc]
  | loads e =>
    simp only [entryCheck, loadsCheck, entryInRange, Bool.and_eq_true, inRange_iff, Nat.zero_le, true_and, and_assoc]

theorem Quad.all_toList {α : Type} (q : Quad α) (p : α → Bool) : q.toList.all p = true ↔ ∀ i, p (q.get i) = true := by
  simp [List.all_eq_true]

theorem Octo.all_toList {α : Type} (q : Octo α) (p : α → Bool) : q.toList.all p = true ↔ ∀ i, p (q.get i) = true := by
  simp only [Octo.toList, List.all_cons, List.all_nil, Bool.and_true, Bool.and_eq_true]
  constructor
  · rintro ⟨h0, h1, h2, h3, h4, h5, h6, h7⟩ i
    fin_cases i
    exacts [h0, h1, h2, h3, h4, h5, h6, h7]
  · intro h
    exact ⟨h 0, h 1, h 2, h 3, h 4, h 5, h 6, h 7⟩

/-- Every table passes its check exactly where every entry lies in its ranges. -/
theorem tableChecks_iff (t : Tables) : tablesInOrder.all (tableCheck t) = true ↔ ∀ p, entryInRange (t.entryAt p) := by
  simp only [tablesInOrder, List.all_cons, List.all_nil, Bool.and_true, Bool.and_eq_true, tableCheck, Quad.all_toList, Octo.all_toList]
  simp only [← entryCheck_iff]
  constructor
  · rintro ⟨hcell, hslots, hrollers, hgroups, hloads⟩ p
    cases p with
    | cell => exact hcell
    | slots i => exact hslots i
    | rollers i => exact hrollers i
    | groups i => exact hgroups i
    | loads i => exact hloads i
  · intro h
    exact ⟨h .cell, fun i => h (.slots i), fun i => h (.rollers i), fun i => h (.groups i), fun i => h (.loads i)⟩

theorem isPresent_eq_false (slots : Quad SlotsEntry) (i : Fin 4) : isPresent slots i = false ↔ slots.get i = .absent := by
  unfold isPresent
  cases slots.get i <;> simp

/-- The membership cross-rule (08 R136). -/
theorem membershipRule_iff (t : Tables) : membershipRule t = true ↔ membersPlaced t := by
  unfold membershipRule membersPlaced
  rw [four_all]
  refine forall_congr' fun i => ?_
  rw [beq_iff_eq, ← isPresent_eq_false, ← Option.isNone_iff_eq_none]
  cases (t.rollers.get i).group <;> cases isPresent t.slots i <;> simp

/-- The fields a placement can hold, in the order in which they are checked: each roller's out-field and in-field, then the report
field. -/
def placeableFields : List (Option (Fin 4 × Bool)) := four.flatMap (fun i => [some (i, false), some (i, true)]) ++ [none]

theorem mem_placeableFields (f : Option (Fin 4 × Bool)) : f ∈ placeableFields := by
  revert f
  decide

theorem nodup_placeableFields : placeableFields.Nodup := by decide

/-- The placed fields of a copy are those among the placeable ones that it places. -/
theorem placedFields_eq (t : Tables) : placedFields t = placeableFields.filterMap (fieldOf t) := by
  have hroller (i : Fin 4) (l : List (Option (Fin 4 × Bool))) :
      (some (i, false) :: some (i, true) :: l).filterMap (fieldOf t) = rollerFields (t.slots.get i) ++ l.filterMap (fieldOf t) := by
    cases h : t.slots.get i <;> simp [fieldOf, h, rollerFields, outFieldLen, inFieldLen]
  have hlist : placeableFields = some (0, false) :: some (0, true) :: some (1, false) :: some (1, true) :: some (2, false)
      :: some (2, true) :: some (3, false) :: some (3, true) :: [none] := rfl
  rw [hlist, hroller, hroller, hroller, hroller]
  unfold placedFields
  cases h : t.cell.report <;> simp [h, fieldOf, reportLen, Quad.toList, Quad.get]

theorem allApart_iff (l : List (Nat × Nat)) : allApart l = true ↔ l.Pairwise fun x y => fieldsApart x y = true := by
  induction l with
  | nil => simp [allApart]
  | cons f l ih => simp [allApart, ih]

theorem fieldsApart_iff (x y : Nat × Nat) : fieldsApart x y = true ↔ x.1 + x.2 ≤ y.1 ∨ y.1 + y.2 ≤ x.1 := by
  simp [fieldsApart]

/-- Two fields of some bytes each stand apart exactly where they share no byte. -/
theorem fieldsApart_iff_no_byte {x y : Nat × Nat} (hx : 0 < x.2) (hy : 0 < y.2) :
    fieldsApart x y = true ↔ ∀ n, ¬ ((x.1 ≤ n ∧ n < x.1 + x.2) ∧ y.1 ≤ n ∧ n < y.1 + y.2) := by
  rw [fieldsApart_iff]
  constructor
  · intro h n
    omega
  · intro h
    have := h (max x.1 y.1)
    omega

theorem fieldOf_pos {t : Tables} {f : Option (Fin 4 × Bool)} {x : Nat × Nat} (h : fieldOf t f = some x) : 0 < x.2 := by
  unfold fieldOf at h
  split at h
  · obtain ⟨r, -, rfl⟩ := Option.map_eq_some_iff.mp h
    simp
  · split at h
    · cases h
    · obtain rfl := Option.some.inj h
      split <;> simp

/-- The placed fields stand apart one by one exactly where no two of them share a byte. -/
theorem allApart_placedFields (t : Tables) :
    allApart (placedFields t) = true ↔ ∀ f h x y, f ≠ h → fieldOf t f = some x → fieldOf t h = some y →
      ∀ n, ¬ ((x.1 ≤ n ∧ n < x.1 + x.2) ∧ y.1 ≤ n ∧ n < y.1 + y.2) := by
  rw [allApart_iff, placedFields_eq, List.pairwise_filterMap]
  constructor
  · intro hpair f h x y hne hx hy
    rw [← fieldsApart_iff_no_byte (fieldOf_pos hx) (fieldOf_pos hy)]
    have : Std.Symm fun a b => ∀ x, fieldOf t a = some x → ∀ y, fieldOf t b = some y → fieldsApart x y = true := by
      refine ⟨fun a b hab y hy x hx => ?_⟩
      have hxy := hab x hx y hy
      rw [fieldsApart_iff] at hxy ⊢
      exact hxy.symm
    exact hpair.forall (mem_placeableFields f) (mem_placeableFields h) hne x hx y hy
  · intro hall
    refine nodup_placeableFields.imp fun {f h} hne x hx y hy => ?_
    rw [fieldsApart_iff_no_byte (fieldOf_pos hx) (fieldOf_pos hy)]
    exact hall f h x y hne hx hy

/-- The placement cross-rule (08 R136). -/
theorem placementRule_iff (t : Tables) : placementRule t = true ↔ fieldsPlaced t := by
  have hwithin : (placedFields t).all (fun f => decide (f.1 + f.2 ≤ t.cell.slotAreaLen)) = true
      ↔ ∀ f x, fieldOf t f = some x → x.1 + x.2 ≤ t.cell.slotAreaLen := by
    rw [placedFields_eq]
    simp only [List.all_eq_true, List.mem_filterMap, decide_eq_true_eq]
    constructor
    · intro h f x hx
      exact h x ⟨f, mem_placeableFields f, hx⟩
    · rintro h x ⟨f, -, hx⟩
      exact h f x hx
  unfold placementRule fieldsPlaced
  rw [Bool.and_eq_true, hwithin, allApart_placedFields]

/-- The start check (08 R137). -/
theorem startCheck_iff (t : Tables) : startCheck t = true ↔ (∀ p, entryInRange (t.entryAt p)) ∧ membersPlaced t ∧ fieldsPlaced t := by
  unfold startCheck
  rw [Bool.and_eq_true, Bool.and_eq_true, tableChecks_iff, membershipRule_iff, placementRule_iff, and_assoc]

/-! ### START -/

theorem ownStart_begins {s : State} (hst : s.lpu.opState = .bypass) (hc : startCheck s.tables.active = true) :
    own .start s = (plainReply .done, startRun s) := by
  simp [own, ownStart, hst, hc]

theorem ownStart_refused {s : State} (hst : s.lpu.opState = .bypass) (hc : startCheck s.tables.active = false) :
    own .start s = (plainReply .invalid, s) := by
  simp [own, ownStart, hst, hc, refuse]

theorem ownStart_active {s : State} (hst : s.lpu.opState = .active) : own .start s = (plainReply .done, s) := by
  simp [own, ownStart, hst]

/-- The state START leaves, with the report image formed from that state itself (02 R34). -/
theorem startRun_eq (s : State) :
    startRun s = { s with
      lpu := { s.lpu with opState := .active, ext := none, last := none, resyncDue := false, silenceTimer := none, arrivalTimer := none }
      slot := { positions := some { slots := s.tables.active.slots, report := s.tables.active.cell.report }
                buffers := Quad.all none, current := Quad.all ⟨false, false, 0⟩, image := some (imageOf 0 (startRun s)) }
      rollers := s.rollers.mapIdx fun _ r => Roller.initial r.chan.flags
      groups := s.groups.mapIdx fun _ g => Group.initial g.flags
      tables := { s.tables with due := LiveDue.none, changes := [], ctl := s.tables.ctl.mapT fun _ c => { c with pinned := false } }
      trace := { s.trace with records := [], read := s.trace.write, counter := 0, lastCounted := none } } := rfl

theorem startRun_image_group (s : State) (g : Fin 4) :
    (imageOf 0 (startRun s)).groups.get g = ⟨.idle, .none, .none, false⟩ ∧ (imageOf 0 (startRun s)).speeds.get g = 0 := by
  have hgroup : (startRun s).groups.get g = Group.initial (s.groups.get g).flags := Quad.get_mapIdx _ _ g
  simp [imageOf, hgroup, viewNoWind, viewOf, Group.initial]

/-- Settles O47: START by its judgement, and the start check rule by rule. -/
theorem startBeginsARun : Obligations.StartBeginsARun := by
  intro s h
  refine ⟨fun hst hc => ?_, fun hst hc => ?_, fun hst => ?_, startCheck_iff⟩
  · obtain ⟨t, ht, hreplied⟩ := exec_replied (c := .start) rfl h (ownStart_begins hst hc) nofun
    exact ⟨t, startRun s, ht, hreplied, startRun_eq s, imageOf_shows 0 _, startRun_image_group s⟩
  · exact exec_replied (c := .start) rfl h (ownStart_refused hst hc) nofun
  · exact exec_replied (c := .start) rfl h (ownStart_active hst) nofun

end Sys2Proof.Machine
end

section
/-! SUPPORT. HALT: the run it ends and the live-due marks it takes (01 R11, R12; 08 R136, R141, R150; log 14). -/

namespace Sys2Proof.Machine

open Sys2Proof.Laws

/-! ### The mark and the entry of a place -/

theorem LiveDue.at_put (d : LiveDue) (p q : Place) (b : Bool) : (d.put p b).at q = if q = p then b else d.at q := by
  cases p <;> cases q <;> simp [LiveDue.put, LiveDue.at, Quad.get_set, Octo.get_set]

theorem LiveDue.at_none (p : Place) : LiveDue.none.at p = false := by
  cases p <;> simp [LiveDue.none, LiveDue.at]

/-- Marks are known by what stands at each place. -/
theorem LiveDue.ext_at {d e : LiveDue} (h : ∀ p, d.at p = e.at p) : d = e := by
  obtain ⟨cell, slots, rollers, groups, loads⟩ := d
  obtain ⟨cell', slots', rollers', groups', loads'⟩ := e
  obtain rfl : cell = cell' := h .cell
  obtain rfl : slots = slots' := Quad.ext_get fun i => h (.slots i)
  obtain rfl : rollers = rollers' := Quad.ext_get fun i => h (.rollers i)
  obtain rfl : groups = groups' := Quad.ext_get fun i => h (.groups i)
  obtain rfl : loads = loads' := Octo.ext_get fun i => h (.loads i)
  rfl

theorem LiveDue.put_none_put (p : Place) : (LiveDue.none.put p true).put p false = LiveDue.none := by
  refine LiveDue.ext_at fun q => ?_
  rw [LiveDue.at_put, LiveDue.at_put, LiveDue.at_none]
  split <;> rfl

/-- An entry put at one place leaves the entries of the others. -/
theorem Tables.entryAt_put_other (t : Tables) {p q : Place} (h : q ≠ p) (e : Entry) : (t.putEntry p e).entryAt q = t.entryAt q := by
  unfold Tables.putEntry
  split
  all_goals cases q <;> simp_all [Tables.entryAt, Quad.get_set, Octo.get_set]

theorem mem_placesInOrder (p : Place) : p ∈ placesInOrder := by
  have hfour := mem_four
  have height (i : Fin 8) : i ∈ eight := by fin_cases i <;> simp [eight]
  cases p <;> simp [placesInOrder, hfour, height]

theorem nodup_placesInOrder : placesInOrder.Nodup := by decide

/-! ### What HALT does with the marks -/

/-- A group as a run that has ended leaves it: an application changes nothing of it. -/
def Group.Rests (x : Group) : Prop := x.state = .idle ∧ x.residue = 0 ∧ x.loadBlend = none ∧ x.dir = .none

theorem haltGroup_rests (x : Group) : (haltGroup x).Rests := ⟨rfl, rfl, rfl, rfl⟩

/-- An application outside ACTIVE leaves a resting group as it is (08 R149; 04 R66, R70, R76; 05 R87; 07 R128). -/
theorem Group.Rests.applied {x : Group} (h : x.Rests) (old new : Tables) (g : Fin 4) (blend : Option Nat) :
    emptiedToIdle old new g (applyToGroup false blend old new g x) = x := by
  obtain ⟨state, cause, windDown, settle, speed, residue, loadBlend, blendPos, dir, flags, handed⟩ := x
  obtain ⟨rfl, rfl, rfl, rfl⟩ : state = .idle ∧ residue = 0 ∧ loadBlend = none ∧ dir = .none := h
  simp only [applyToGroup, adjustBlend, ite_self]
  simp [emptiedToIdle]

/-- The part as a run that has ended leaves it: outside ACTIVE, every group at rest. -/
def RunEnded (s : State) : Prop := s.lpu.opState ≠ .active ∧ ∀ g, (s.groups.get g).Rests

theorem runEnds_ended (s : State) : RunEnded (runEnds s) := by
  refine ⟨by simp [runEnds, runEdge], fun g => ?_⟩
  rw [show (runEnds s).groups.get g = haltGroup (s.groups.get g) from Quad.get_mapIdx _ _ g]
  exact haltGroup_rests _

theorem runEnds_chan (s : State) (i : Fin 4) : ((runEnds s).rollers.get i).chan = (s.rollers.get i).chan := by
  rw [show (runEnds s).rollers.get i = { s.rollers.get i with coup := { (s.rollers.get i).coup with reference := none } } from
    Quad.get_mapIdx _ _ i]

/-- An application after a run replaces the active copies, and gives a roller whose group changes the published stage SAFE (07 R113, 08
R149). -/
theorem applyTables_of_ended {s : State} (h : RunEnded s) (new : Tables) (blend : Option Nat) :
    applyTables new blend s = { s with
      tables := { s.tables with active := new }
      rollers := s.rollers.mapIdx fun i r => rejoined s.tables.active new i r } := by
  obtain ⟨hst, hrest⟩ := h
  have hgroups : (s.groups.mapIdx fun g x => emptiedToIdle s.tables.active new g
      (applyToGroup (decide (s.lpu.opState = .active)) blend s.tables.active new g x)) = s.groups := by
    refine Quad.ext_get fun g => ?_
    rw [Quad.get_mapIdx, decide_eq_false hst, (hrest g).applied]
  unfold applyTables
  simp only
  rw [hgroups]

/-- What the marks taken at HALT leave alone, and what they leave of the marks (08 R141, R152). -/
structure MarksTaken (s t : State) : Prop where
  lpu : t.lpu = s.lpu
  groups : t.groups = s.groups
  staging : t.tables.staging = s.tables.staging
  flags : t.tables.flags = s.tables.flags
  changes : t.tables.changes = s.tables.changes
  chan : ∀ i, (t.rollers.get i).chan = (s.rollers.get i).chan
  entry : ∀ p, s.tables.due.at p = false → t.tables.active.entryAt p = s.tables.active.entryAt p
  due : ∀ p, s.tables.due.at p = false → t.tables.due.at p = false

theorem MarksTaken.refl (s : State) : MarksTaken s s := ⟨rfl, rfl, rfl, rfl, rfl, fun _ => rfl, fun _ _ => rfl, fun _ h => h⟩

theorem MarksTaken.trans {s t u : State} (h : MarksTaken s t) (k : MarksTaken t u) : MarksTaken s u where
  lpu := k.lpu.trans h.lpu
  groups := k.groups.trans h.groups
  staging := k.staging.trans h.staging
  flags := k.flags.trans h.flags
  changes := k.changes.trans h.changes
  chan i := (k.chan i).trans (h.chan i)
  entry p hp := (k.entry p (h.due p hp)).trans (h.entry p hp)
  due p hp := k.due p (h.due p hp)

theorem MarksTaken.ended {s t : State} (h : MarksTaken s t) (hs : RunEnded s) : RunEnded t := by
  unfold RunEnded
  rw [h.lpu, h.groups]
  exact hs

/-- A mark cleared. -/
def unmark (p : Place) (s : State) : State := s.onTables fun x => { x with due := x.due.put p false }

theorem unmark_at (p q : Place) (s : State) : (unmark p s).tables.due.at q = if q = p then false else s.tables.due.at q :=
  LiveDue.at_put s.tables.due p q false

theorem unmark_taken (p : Place) (s : State) : MarksTaken s (unmark p s) where
  lpu := rfl
  groups := rfl
  staging := rfl
  flags := rfl
  changes := rfl
  chan _ := rfl
  entry _ _ := rfl
  due q hq := by rw [unmark_at, hq, ite_self]

theorem rejoined_chan (old new : Tables) (i : Fin 4) (r : Roller) : (rejoined old new i r).chan = r.chan := by
  unfold rejoined
  split <;> rfl

/-- A mark taken at HALT leaves what it is not about, and is clear afterwards (08 R141; log 14). -/
theorem haltLiveDue_taken {s : State} (hs : RunEnded s) (p : Place) :
    MarksTaken s (haltLiveDue p s) ∧ (haltLiveDue p s).tables.due.at p = false := by
  rcases haltLiveDue_cases p s with ⟨hclear, h⟩ | ⟨hmark, -, h⟩ | ⟨-, -, h⟩
  · rw [h]
    exact ⟨.refl s, hclear⟩
  · have happly := applyTables_of_ended ((unmark_taken p s).ended hs) (s.tables.active.putEntry p (s.tables.staging.entryAt p)) none
    rw [h]
    rw [show (s.onTables fun x => { x with due := x.due.put p false }) = unmark p s from rfl, happly]
    refine ⟨{ unmark_taken p s with
      chan := fun i => ?_
      entry := fun q hq => Tables.entryAt_put_other _ (fun heq => ?_) _ }, by simp [unmark_at]⟩
    · simp only [Quad.get_mapIdx, rejoined_chan]
      rfl
    · rw [heq, hmark] at hq
      cases hq
  · rw [h]
    exact ⟨unmark_taken p s, by rw [show (s.onTables fun x => { x with due := x.due.put p false }) = unmark p s from rfl]; simp [unmark_at]⟩

/-- Marks taken at some places one after the other: each of them is clear afterwards. -/
theorem foldl_haltLiveDue (l : List Place) {s : State} (hs : RunEnded s) :
    MarksTaken s (l.foldl (fun s p => haltLiveDue p s) s)
      ∧ ∀ p ∈ l, (l.foldl (fun s p => haltLiveDue p s) s).tables.due.at p = false := by
  induction l generalizing s with
  | nil => exact ⟨.refl s, by simp⟩
  | cons q l ih =>
    obtain ⟨htaken, hclear⟩ := haltLiveDue_taken hs q
    obtain ⟨hrest, hall⟩ := ih (htaken.ended hs)
    refine ⟨htaken.trans hrest, fun p hp => ?_⟩
    rcases List.mem_cons.mp hp with rfl | hp
    · exact hrest.due p hclear
    · exact hall p hp

/-- Every mark is taken at HALT (08 R141). -/
theorem haltAllLiveDue_taken {s : State} (hs : RunEnded s) :
    MarksTaken s (haltAllLiveDue s) ∧ (haltAllLiveDue s).tables.due = LiveDue.none := by
  obtain ⟨htaken, hclear⟩ := foldl_haltLiveDue placesInOrder hs
  refine ⟨htaken, LiveDue.ext_at fun p => ?_⟩
  rw [LiveDue.at_none]
  exact hclear p (mem_placesInOrder p)

/-- Places without a mark change nothing. -/
theorem foldl_haltLiveDue_unmarked (l : List Place) (s : State) (h : ∀ p ∈ l, s.tables.due.at p = false) :
    l.foldl (fun s p => haltLiveDue p s) s = s := by
  induction l with
  | nil => rfl
  | cons q l ih =>
    have hq : haltLiveDue q s = s := by simp [haltLiveDue, h q List.mem_cons_self]
    rw [List.foldl_cons, hq]
    exact ih fun p hp => h p (List.mem_cons_of_mem q hp)

theorem haltAllLiveDue_unmarked {s : State} (h : s.tables.due = LiveDue.none) : haltAllLiveDue s = s :=
  foldl_haltLiveDue_unmarked _ s fun p _ => by rw [h, LiveDue.at_none]

/-- With one mark set, HALT takes that one. -/
theorem haltAllLiveDue_one {s : State} {p : Place} (hs : RunEnded s) (h : s.tables.due = LiveDue.none.put p true) :
    haltAllLiveDue s = haltLiveDue p s := by
  have hother {q : Place} (hq : q ≠ p) : s.tables.due.at q = false := by
    rw [h, LiveDue.at_put, if_neg hq, LiveDue.at_none]
  obtain ⟨before, after, hsplit⟩ := List.append_of_mem (mem_placesInOrder p)
  have hnodup := nodup_placesInOrder
  rw [hsplit, List.nodup_append] at hnodup
  obtain ⟨-, hafter, hbefore⟩ := hnodup
  obtain ⟨htaken, hclear⟩ := haltLiveDue_taken hs p
  unfold haltAllLiveDue
  rw [hsplit, List.foldl_append, List.foldl_cons,
    foldl_haltLiveDue_unmarked before s fun q hq => hother fun heq => hbefore q hq p List.mem_cons_self heq]
  refine foldl_haltLiveDue_unmarked after _ fun q hq => htaken.due q (hother fun heq => ?_)
  rw [heq] at hq
  exact (List.nodup_cons.mp hafter).1 hq

/-! ### HALT -/

theorem ownHalt_ends {s : State} (hst : s.lpu.opState = .active) (h : ∀ g, (s.groups.get g).state = .idle ∨ (s.groups.get g).state = .faulted) :
    own .halt s = (plainReply .done, haltRun s) := by
  have hall : four.all (standing s) = true := by
    rw [four_all]
    intro g
    rcases h g with hg | hg <;> simp [standing, hg]
  simp only [own, ownHalt, hst, hall, if_true]

theorem ownHalt_refused {s : State} (hst : s.lpu.opState = .active)
    (h : ¬ ∀ g, (s.groups.get g).state = .idle ∨ (s.groups.get g).state = .faulted) : own .halt s = (plainReply .state, s) := by
  have hall : ¬ four.all (standing s) = true := by
    rw [four_all]
    intro hall
    refine h fun g => ?_
    have hg := hall g
    unfold standing at hg
    split at hg
    · exact .inl ‹_›
    · exact .inr ‹_›
    · cases hg
  simp only [own, ownHalt, hst, hall]
  rfl

theorem ownHalt_bypass {s : State} (hst : s.lpu.opState = .bypass) : own .halt s = (plainReply .done, s) := by
  simp [own, ownHalt, hst]

/-- Settles O48: the run's end, the marks by `haltAllLiveDue_unmarked`, `haltAllLiveDue_taken` and `haltAllLiveDue_one`, and the
refusals. -/
theorem haltEndsARun : Obligations.HaltEndsARun := by
  intro s h still halted
  have hended := runEnds_ended s
  refine ⟨fun hst hstill hdue => ?_, fun hst hstill => ?_, fun p hst hstill hdue => ?_, fun hst hno => ?_, fun hst => ?_⟩
  · obtain ⟨t, ht, hreplied⟩ := exec_replied (c := .halt) rfl h (ownHalt_ends hst hstill) nofun
    refine ⟨t, ht, ?_⟩
    have hrun : haltRun s = halted := by
      unfold haltRun
      rw [haltAllLiveDue_unmarked (s := runEnds s) hdue]
      simp only [halted, ← hdue]
      rfl
    rwa [hrun] at hreplied
  · obtain ⟨t, ht, hsame, -, hlast⟩ := exec_replied (c := .halt) rfl h (ownHalt_ends hst hstill) nofun
    obtain ⟨htaken, hclear⟩ := haltAllLiveDue_taken hended
    refine ⟨t, ht, hlast, ?_⟩
    rw [hsame, haltRun]
    generalize haltAllLiveDue (runEnds s) = u at htaken hclear ⊢
    have hflags : (u.onTables dropChanges).tables.flags = halted.tables.flags := by
      simp only [State.onTables_tables, dropChanges, htaken.flags, htaken.changes]
      rfl
    exact ⟨htaken.lpu, htaken.groups, hclear, rfl, htaken.staging, hflags,
      fun i => (htaken.chan i).trans (runEnds_chan s i), htaken.entry⟩
  · intro e new
    obtain ⟨t, ht, hreplied⟩ := exec_replied (c := .halt) rfl h (ownHalt_ends hst hstill) nofun
    have hunmark : unmark p (runEnds s) = { runEnds s with tables := { s.tables with due := LiveDue.none } } := by
      rw [← LiveDue.put_none_put p, ← hdue]
      rfl
    have hmark : (runEnds s).tables.due.at p = true := by
      rw [show (runEnds s).tables.due = _ from hdue, LiveDue.at_put, if_pos rfl]
    have hone : haltRun s = (haltLiveDue p (runEnds s)).onTables dropChanges := by
      unfold haltRun
      rw [haltAllLiveDue_one hended hdue]
    rcases haltLiveDue_cases p (runEnds s) with ⟨hclear, -⟩ | ⟨-, hcheck, htake⟩ | ⟨-, hcheck, htake⟩
    · rw [hmark] at hclear
      cases hclear
    · refine ⟨fun _ => ⟨t, ht, ?_⟩, fun hfails => ?_⟩
      · have happly := applyTables_of_ended ((unmark_taken p (runEnds s)).ended hended) new none
        have hrun : haltRun s = { halted with
            tables := { halted.tables with active := new }
            rollers := halted.rollers.mapIdx fun i r =>
              if (s.tables.active.rollers.get i).group = (new.rollers.get i).group then r else { r with published := .safe } } := by
          rw [hone, htake]
          refine (congrArg (fun u => u.onTables dropChanges) happly).trans ?_
          rw [hunmark]
          rfl
        rwa [hrun] at hreplied
      · rw [show liveCheck s.tables.active p e = true from hcheck] at hfails
        cases hfails
    · refine ⟨fun hpasses => ?_, fun _ => ⟨t, ht, ?_⟩⟩
      · rw [show liveCheck s.tables.active p e = false from hcheck] at hpasses
        cases hpasses
      · have hrun : haltRun s = halted := by
          rw [hone, htake]
          exact congrArg (fun u => u.onTables dropChanges) hunmark
        rwa [hrun] at hreplied
  · exact exec_replied (c := .halt) rfl h (ownHalt_refused hst hno) nofun
  · exact exec_replied (c := .halt) rfl h (ownHalt_bypass hst) nofun

end Sys2Proof.Machine
end

section
/-! SUPPORT. A request's way from its entry to its result (10 R163, R164, R166): the entries that ask for a row, the owners' independence of the
reply queue, and the result that becomes present. -/

namespace Sys2Proof.Machine

open Sys2Proof.Laws

/-! ### The entries that ask for a row -/

theorem requestKind_of_requestIn {c : Instr} {r : Request} (h : requestIn c = some r) : requestKind c = some (kindOf r) := by
  cases c <;> cases h <;> rfl

theorem requestIn_of_requestKind {c : Instr} {kind : Byte} (h : requestKind c = some kind) : ∃ r, requestIn c = some r := by
  cases c <;> first | exact ⟨_, rfl⟩ | cases h

theorem numAt_lt (bs : List Byte) (off n : Nat) : numAt bs off n < 256 ^ n := by
  refine lt_of_lt_of_le (fromLE_lt _) (Nat.pow_le_pow_right (by omega) ?_)
  simp [sliceAt]

/-- A number of a payload as a word that it fits. -/
theorem ofNat_numAt_eq_iff {w : Nat} (n : Nat) (hw : 256 ^ n = 2 ^ w) (bs : List Byte) (off : Nat) (x : BitVec w) :
    BitVec.ofNat w (fromLE (sliceAt bs off n)) = x ↔ x.toNat = numAt bs off n := by
  have hlt := numAt_lt bs off n
  rw [hw] at hlt
  constructor
  · rintro rfl
    rw [BitVec.toNat_ofNat, numAt]
    exact Nat.mod_eq_of_lt hlt
  · intro h
    refine BitVec.eq_of_toNat_eq ?_
    rw [BitVec.toNat_ofNat, h]
    exact Nat.mod_eq_of_lt hlt

/-- The bytes of an entry in a WRITE_ENTRY payload (13 Sections 13.4 and 13.5): none where no table is named. -/
theorem entryPayload_eq (t : Byte) (payload : List Byte) :
    (match tableOf t with
      | some tb => sliceAt payload 2 (entrySize tb)
      | none => []) = sliceAt payload 2 ([12, 5, 30, 11, 10].getD t.toNat 0) := by
  unfold tableOf tableOfCode
  generalize t.toNat = n
  match n with
  | 0 | 1 | 2 | 3 | 4 => rfl
  | n + 5 => simp [sliceAt]

theorem requestOf_clearFlags (p : List Byte) : requestOf 3 p = some (.clearFlags (BitVec.ofNat 64 (fromLE (sliceAt p 0 8)))) := rfl

theorem requestOf_writeEntry (p : List Byte) : requestOf 8 p = some (.writeEntry (p.getD 0 0) (p.getD 1 0)
    (sliceAt p 2 ([12, 5, 30, 11, 10].getD (p.getD 0 0).toNat 0))) :=
  congrArg (fun bs => some (Request.writeEntry (p.getD 0 0) (p.getD 1 0) bs)) (entryPayload_eq (p.getD 0 0) p)

theorem requestOf_commit (p : List Byte) : requestOf 10 p = some (.commit (p.getD 0 0) (p.getD 1 0)
    (BitVec.ofNat 64 (fromLE (sliceAt p 2 8))) (BitVec.ofNat 16 (fromLE (sliceAt p 10 2)))) := rfl

/-- An entry asks for a row exactly where the request it holds is the row's (13 Section 13.4). -/
theorem asks_iff {c : Instr} {r : Request} (hc : requestIn c = some r) (e : ReplyEntry) :
    Asks c e ↔ requestOf e.kind e.payload = some r := by
  by_cases hk : e.kind = kindOf r
  · cases c <;> first | (obtain rfl := Option.some.inj hc) | cases hc
    case clearFlags m =>
      rw [hk, kindOf, requestOf_clearFlags, Option.some_inj, Request.clearFlags.injEq, ofNat_numAt_eq_iff 8 (by norm_num)]
      simp [Asks, requestKind, hk, kindOf]
    case writeEntry t i bs =>
      rw [hk, kindOf, requestOf_writeEntry]
      constructor
      · rintro ⟨-, rfl, rfl, rfl⟩
        rfl
      · intro h
        obtain ⟨rfl, rfl, rfl⟩ := Request.writeEntry.inj (Option.some.inj h)
        exact ⟨congrArg some hk.symm, rfl, rfl, rfl⟩
    case commit m p x b =>
      rw [hk, kindOf, requestOf_commit, Option.some_inj, Request.commit.injEq, ofNat_numAt_eq_iff 8 (by norm_num),
        ofNat_numAt_eq_iff 2 (by norm_num)]
      simp [Asks, requestKind, hk, kindOf]
    all_goals simp [Asks, requestKind, hk, kindOf, requestOf, payloadByte, eq_comm]
  · refine ⟨fun h => absurd ?_ hk, fun h => absurd (kind_of_requestOf h) hk⟩
    exact (Option.some.inj ((requestKind_of_requestIn hc).symm.trans h.1)).symm

/-! ### Owners and the reply queue -/

/-- The state with other entries in the reply queue and outside it. -/
def State.withEntries (s : State) (queue orphans : List ReplyEntry) : State :=
  s.onSvc fun x => { x with queue := queue, orphans := orphans }

section
variable (s : State) (q o : List ReplyEntry)

@[simp] theorem State.withEntries_lpu : (s.withEntries q o).lpu = s.lpu := rfl
@[simp] theorem State.withEntries_groups : (s.withEntries q o).groups = s.groups := rfl
@[simp] theorem State.withEntries_trace : (s.withEntries q o).trace = s.trace := rfl
@[simp] theorem State.withEntries_store : (s.withEntries q o).store = s.store := rfl

/-- An answer with the state it leaves, that state with other entries. -/
def beside {α : Type} (q o : List ReplyEntry) (x : α × State) : α × State := (x.1, x.2.withEntries q o)

/-- An owner neither reads nor touches the entries: with others it gives the same answer and leaves the others. -/
def EntriesApart {α : Type} (f : State → α × State) : Prop := ∀ s q o, f (s.withEntries q o) = beside q o (f s)

/-- A choice commutes with a function that its two branches commute with. -/
theorem ite_through {α β : Type} (f : α → β) {c d : Prop} [Decidable c] [Decidable d] {x y : β} {a b : α} (h : c ↔ d)
    (ht : d → x = f a) (hf : ¬ d → y = f b) : (if c then x else y) = f (if d then a else b) := by
  by_cases hd : d
  · rw [if_pos hd, if_pos (h.2 hd), ht hd]
  · rw [if_neg hd, if_neg (mt h.1 hd), hf hd]

theorem ownStart_entriesApart : EntriesApart ownStart := by
  intro s q o
  unfold ownStart
  simp only [State.withEntries_lpu]
  split
  · rfl
  · exact ite_through _ .rfl (fun _ => rfl) (fun _ => rfl)
  · rfl

theorem haltLiveDue_withEntries (p : Place) : haltLiveDue p (s.withEntries q o) = (haltLiveDue p s).withEntries q o :=
  ite_through (State.withEntries · q o) .rfl
    (fun _ => ite_through (State.withEntries · q o) .rfl (fun _ => rfl) (fun _ => rfl)) (fun _ => rfl)

theorem haltRun_withEntries : haltRun (s.withEntries q o) = (haltRun s).withEntries q o := by
  have hfold (l : List Place) (u : State) : l.foldl (fun s p => haltLiveDue p s) (u.withEntries q o)
      = (l.foldl (fun s p => haltLiveDue p s) u).withEntries q o := by
    induction l generalizing u with
    | nil => rfl
    | cons p l ih => rw [List.foldl_cons, haltLiveDue_withEntries, ih, List.foldl_cons]
  have hall : haltAllLiveDue (runEnds (s.withEntries q o)) = (haltAllLiveDue (runEnds s)).withEntries q o := hfold placesInOrder (runEnds s)
  unfold haltRun
  rw [hall]
  rfl

theorem ownHalt_entriesApart : EntriesApart ownHalt := by
  intro s q o
  unfold ownHalt
  simp only [State.withEntries_lpu, haltRun_withEntries]
  split
  · rfl
  · exact ite_through _ .rfl (fun _ => rfl) (fun _ => rfl)
  · rfl

/-- A GROUP action does the same beside other entries. -/
theorem groupAction_entriesApart {a : Nat} {act : Fin 4 → State → Acted} (h : groupAction a = some act) (g : Fin 4) :
    EntriesApart (act g) := by
  intro s q o
  unfold groupAction at h
  split at h <;> first | (obtain rfl := Option.some.inj h) | cases h
  · unfold actEngage
    simp only [State.withEntries_groups]
    split
    · exact ite_through _ .rfl (fun _ => rfl) (fun _ => rfl)
    all_goals rfl
  · unfold actRun
    simp only [State.withEntries_groups]
    split <;> rfl
  · unfold actTrack
    simp only [State.withEntries_groups]
    repeat' split
    all_goals rfl
  · unfold actUntrack
    simp only [State.withEntries_groups]
    repeat' split
    all_goals rfl
  · unfold actStop
    simp only [State.withEntries_groups]
    split <;> rfl
  · unfold actDisengage
    simp only [State.withEntries_groups]
    split <;> rfl
  · unfold actClear
    simp only [State.withEntries_groups]
    split
    · exact ite_through _ .rfl (fun _ => rfl) (fun _ => rfl)
    · exact ite_through _ .rfl (fun _ => rfl) (fun _ => rfl)
    · rfl

theorem ownGroup_entriesApart (g a : Byte) : EntriesApart (ownGroup g a) := by
  intro s q o
  unfold ownGroup
  refine ite_through _ .rfl (fun _ => rfl) fun _ => ?_
  cases ha : groupAction a.toNat with
  | none => rfl
  | some act =>
    simp only
    split
    · refine ite_through _ .rfl (fun _ => ?_) (fun _ => rfl)
      rw [groupAction_entriesApart ha]
      rfl
    · rfl

theorem ownReadEntry_entriesApart (t i c : Byte) : EntriesApart (ownReadEntry t i c) := by
  intro s q o
  unfold ownReadEntry
  repeat' split
  all_goals rfl

theorem writePassed_entriesApart (p : Place) (e : Entry) : EntriesApart (writePassed p e) := by
  intro s q o
  unfold writePassed
  refine ite_through _ .rfl (fun _ => ?_) (fun _ => rfl)
  simp only [State.withEntries_lpu]
  split <;> rfl

theorem writeAt_entriesApart (p : Place) (bs : List Byte) : EntriesApart (writeAt p bs) := by
  intro s q o
  unfold writeAt
  refine ite_through _ .rfl (fun _ => rfl) (fun _ => ite_through _ .rfl (fun _ => rfl) fun _ => ?_)
  split
  · rfl
  · exact ite_through _ .rfl (fun _ => rfl) fun _ => ite_through _ .rfl (fun _ => rfl) fun _ =>
      ite_through _ .rfl (fun _ => rfl) fun _ => writePassed_entriesApart p _ s q o

theorem ownWriteEntry_entriesApart (t i : Byte) (bs : List Byte) : EntriesApart (ownWriteEntry t i bs) := by
  intro s q o
  unfold ownWriteEntry
  split
  · rfl
  · refine ite_through _ .rfl (fun _ => rfl) fun _ => ?_
    split
    · rfl
    · exact writeAt_entriesApart _ bs s q o

theorem ownSetLive_entriesApart (t v : Byte) : EntriesApart (ownSetLive t v) := by
  intro s q o
  unfold ownSetLive
  split
  · rfl
  · refine ite_through _ .rfl (fun _ => rfl) fun _ => ?_
    simp only
    split
    · rfl
    · exact ite_through _ .rfl (fun _ => rfl) (fun _ => rfl)
    · rfl

theorem noteStation_withEntries (mask : Byte) : noteStation mask (s.withEntries q o) = (noteStation mask s).withEntries q o :=
  ite_through (State.withEntries · q o) .rfl (fun _ => rfl) (fun _ => rfl)

theorem commitActive_entriesApart (mask : Byte) (effective blend : Option Nat) : EntriesApart (commitActive mask effective blend) := by
  intro s q o
  unfold commitActive
  refine ite_through _ .rfl (fun _ => rfl) fun _ => ?_
  simp only [State.withEntries_lpu]
  split
  · rfl
  · exact ite_through _ .rfl (fun _ => rfl) fun _ => ite_through _ .rfl (fun _ => rfl) fun _ =>
      ite_through _ .rfl (fun _ => rfl) (fun _ => rfl)

theorem commitBypass_entriesApart (mask : Byte) (effective blend : Option Nat) : EntriesApart (commitBypass mask effective blend) := by
  intro s q o
  refine ite_through _ .rfl (fun _ => rfl) fun _ => ite_through _ .rfl (fun _ => rfl) fun _ => ?_
  exact congrArg (fun u : State => (({ code := .done, payload := leBytes 1 u.tables.changes.length } : Reply), u))
    (noteStation_withEntries (applyTables (Tables.merge (maskNames mask) s.tables.staging s.tables.active) blend s) q o mask)

theorem ownCommit_entriesApart (mask presence : Byte) (effective : BitVec 64) (blend : BitVec 16) :
    EntriesApart (ownCommit mask presence effective blend) := by
  intro s q o
  unfold ownCommit
  refine ite_through _ .rfl (fun _ => rfl) fun _ => ite_through _ .rfl (fun _ => rfl) fun _ => ?_
  simp only [State.withEntries_lpu]
  split
  · exact commitActive_entriesApart mask _ _ s q o
  · exact commitBypass_entriesApart mask _ _ s q o

theorem ownCancel_entriesApart (m : Byte) : EntriesApart (ownCancel m) :=
  fun _ _ _ => ite_through _ .rfl (fun _ => rfl) (fun _ => rfl)

theorem ownLock_entriesApart (mask mode : Byte) : EntriesApart (ownLock mask mode) := by
  intro s q o
  unfold ownLock
  refine ite_through _ .rfl (fun _ => rfl) fun _ => ?_
  split
  · rfl
  · exact ite_through _ .rfl (fun _ => rfl) fun _ => ite_through _ .rfl (fun _ => rfl) (fun _ => rfl)
  all_goals rfl

theorem ownFreeze_entriesApart : EntriesApart ownFreeze := by
  intro s q o
  have hentry (t : State) : withFreezeEntry (s.withEntries q o) (t.withEntries q o) = (withFreezeEntry s t).withEntries q o :=
    ite_through (State.withEntries · q o) .rfl (fun _ => rfl) (fun _ => rfl)
  exact congrArg (freezeReply .done) (hentry (s.onTables fun x => { x with freezeFlag := true }))

theorem ownThaw_entriesApart : EntriesApart ownThaw :=
  fun _ _ _ => ite_through _ .rfl (fun _ => rfl) (fun _ => rfl)

theorem ownTraceSet_entriesApart (g d en : Byte) : EntriesApart (ownTraceSet g d en) := by
  intro s q o
  unfold ownTraceSet
  repeat' split
  all_goals rfl

theorem ownReadTrace_entriesApart : EntriesApart ownReadTrace := by
  intro s q o
  unfold ownReadTrace
  simp only [State.withEntries_trace]
  split <;> rfl

theorem ownStoreSave_entriesApart : EntriesApart ownStoreSave := by
  intro s q o
  unfold ownStoreSave
  simp only [State.withEntries_store]
  split
  · rfl
  · exact ite_through _ .rfl (fun _ => rfl) (fun _ => rfl)

theorem ownRestart_entriesApart : EntriesApart ownRestart := by
  intro s q o
  unfold ownRestart
  refine ite_through _ .rfl (fun _ => rfl) fun _ => ite_through _ .rfl (fun _ => rfl) fun _ => ?_
  simp only [State.withEntries_store]
  split
  · rfl
  · exact ite_through _ .rfl (fun _ => rfl) (fun _ => rfl)

theorem own_entriesApart (r : Request) : EntriesApart (own r) := by
  cases r with
  | identify => exact fun _ _ _ => rfl
  | readStatus => exact fun _ _ _ => rfl
  | clearFlags m => exact fun _ _ _ => rfl
  | start => exact ownStart_entriesApart
  | halt => exact ownHalt_entriesApart
  | group g a => exact ownGroup_entriesApart g a
  | readEntry t i c => exact ownReadEntry_entriesApart t i c
  | writeEntry t i e => exact ownWriteEntry_entriesApart t i e
  | setLive t v => exact ownSetLive_entriesApart t v
  | commit m p e b => exact ownCommit_entriesApart m p e b
  | cancel m => exact ownCancel_entriesApart m
  | lock m md => exact ownLock_entriesApart m md
  | freeze => exact ownFreeze_entriesApart
  | thaw => exact ownThaw_entriesApart
  | traceSet g d e => exact ownTraceSet_entriesApart g d e
  | readTrace => exact ownReadTrace_entriesApart
  | storeSave => exact ownStoreSave_entriesApart
  | restart => exact ownRestart_entriesApart

end

/-! ### A row's answer -/

/-- The requests in service are the entries without a result, those that have left the queue first (10 R164, R166). -/
theorem awaiting_eq (s : State) : (s.svc.orphans ++ s.svc.queue).filter (fun e => decide (e.result = none)) = awaiting s := by
  refine List.filter_congr fun e _ => ?_
  cases e.result <;> rfl

theorem entryFor_of_oldest {c : Instr} {r : Request} {s : State} {before after : List ReplyEntry} {e : ReplyEntry}
    (hc : requestIn c = some r) (hs : awaiting s = before ++ e :: after) (hbefore : ∀ x ∈ before, x.answer = none → ¬ Asks c x)
    (hnone : e.answer = none) (hasks : Asks c e) : entryFor r s = some e := by
  rw [entryFor, List.find?_eq_some_iff_append]
  refine ⟨by simp [hnone, (asks_iff hc e).1 hasks], before, after, hs, fun x hx => ?_⟩
  have hx := hbefore x hx
  rw [asks_iff hc] at hx
  cases hx' : x.answer <;> simp_all

theorem entryFor_of_nobody {c : Instr} {r : Request} {s : State} (hc : requestIn c = some r)
    (h : ∀ x ∈ awaiting s, x.answer = none → ¬ Asks c x) : entryFor r s = none := by
  rw [entryFor, List.find?_eq_none]
  intro x hx
  have hx := h x hx
  rw [asks_iff hc] at hx
  simpa using hx

/-- A taken row leaves its owner's reply as the last one (log 9). -/
theorem serveRow_lastReply {s : State} (h : takesRequests s = true) (r : Request) : (serveRow r s).svc.lastReply = some (own r s).1 := by
  unfold serveRow
  rw [if_pos h]
  simp only
  split
  · rw [linkRestart_only]
    rfl
  · rfl

theorem serveRow_of_entry {r : Request} {s : State} {e : ReplyEntry} (h : takesRequests s = true) (he : entryFor r s = some e) :
    (serveRow r s).svc.queue = s.svc.queue.map (fun x => if x.id = e.id then { x with answer := some (own r s).1 } else x)
      ∧ (serveRow r s).svc.orphans = s.svc.orphans.map fun x => if x.id = e.id then { x with answer := some (own r s).1 } else x := by
  unfold serveRow
  rw [if_pos h, he]
  simp only
  rw [linkRestart_only, ← (own_kept r s).queue, ← (own_kept r s).orphans]
  exact ⟨rfl, rfl⟩

theorem serveRow_of_no_entry {r : Request} {s : State} (h : takesRequests s = true) (he : entryFor r s = none) :
    serveRow r s = (serveNow r s).2 := by
  unfold serveRow
  rw [if_pos h, he]

/-! ### An owner that finishes -/

theorem ownRestart_accepted {s : State} (h : (ownRestart s).1.code = .accepted) :
    (ownRestart s).2.store.restart = some { waited := 0, entry := none } := by
  unfold ownRestart at h ⊢
  repeat' split
  all_goals first | rfl | simp_all [refuse, plainReply]

/-- The row of a request, on the state without entries, leaves what the owner does to it. -/
theorem exec_alone {c : Instr} {r : Request} {s v : State} (hc : requestIn c = some r) (h : takesRequests s = true)
    (hv : exec c (s.withEntries [] []) = .next v) :
    v = ((own r s).2.withEntries [] []).onSvc fun x => { x with lastReply := some (own r s).1 } := by
  rw [exec_request hc, Host.Outcome.next.injEq, serveRow_of_no_entry (s := s.withEntries [] []) h rfl, serveNow, own_entriesApart] at hv
  exact hv.symm

/-- An owner that has not answered serves the request as the row would, and an accepted RESTART waits for its own entry (12 R184). -/
theorem answerOf_unanswered {c : Instr} {s v : State} {e : ReplyEntry} {rep : Reply} (he : e.answer = none)
    (h : takesRequests s = true) (hasks : Asks c e) (hv : exec c (s.withEntries [] []) = .next v) (hrep : v.svc.lastReply = some rep) :
    answerOf e s = (rep, { v with
      svc := { v.svc with queue := s.svc.queue, orphans := s.svc.orphans }
      store := { v.store with restart := if e.kind = 18 ∧ rep.code = .accepted then some { waited := e.age, entry := some e.id }
                 else v.store.restart } }) := by
  obtain ⟨r, hc⟩ := requestIn_of_requestKind hasks.1
  have hreq := (asks_iff hc e).1 hasks
  obtain rfl := exec_alone hc h hv
  obtain rfl : (own r s).1 = rep := Option.some.inj hrep
  have hanswer : answerOf e s = ((own r s).1, linkRestart e (own r s).1 (serveNow r s).2) := by
    rw [answerOf, he, hreq]
    rfl
  rw [hanswer, linkRestart, ← (own_kept r s).queue, ← (own_kept r s).orphans]
  by_cases hlink : e.kind = 18 ∧ (own r s).1.code = .accepted
  · obtain rfl : r = .restart := restart_of_kindOf ((kind_of_requestOf hreq).symm.trans hlink.1)
    have hset : (serveNow .restart s).2.store.restart = some { waited := 0, entry := none } := ownRestart_accepted hlink.2
    rw [if_pos hlink, if_pos hlink, State.onStore, hset]
    rfl
  · rw [if_neg hlink, if_neg hlink]
    rfl

/-- A RESTART whose entry is still held is not due (12 R184). -/
theorem restartDue_of_held {s : State}
    (h : ∀ w id, s.store.restart = some w → w.entry = some id → ∃ x ∈ s.svc.queue ++ s.svc.orphans, x.id = id) : restartDue s = false := by
  unfold restartDue
  split
  · rename_i w id hw
    obtain ⟨x, hx, hid⟩ := h _ id hw rfl
    rw [Bool.not_eq_false']
    exact List.any_eq_true.2 ⟨x, hx, decide_eq_true hid⟩
  · rfl

theorem completeService_of_answer {s u : State} {n : Nat} {e : ReplyEntry} {rep : Reply} (hn : (awaiting s)[n]? = some e)
    (ha : answerOf e s = (rep, u)) (hdue : restartDue (resultPresent e rep u) = false) :
    completeService n s = resultPresent e rep u := by
  rw [completeService, hn]
  simp only
  rw [ha, afterQueue_of_not_due hdue]

/-- The result of an entry still in the queue becomes present there. -/
theorem resultPresent_of_queued {s : State} {e : ReplyEntry} (h : ∃ x ∈ s.svc.queue, x.id = e.id) (rep : Reply) :
    resultPresent e rep s = s.onEntry e.id fun x => { x with result := some rep } := by
  obtain ⟨x, hx, hid⟩ := h
  rw [resultPresent, if_pos (List.any_eq_true.2 ⟨x, hx, decide_eq_true hid⟩)]

/-- The result of an entry that has left the queue is recorded, where it left unanswered (10 R166). -/
theorem resultPresent_of_left {s : State} {e : ReplyEntry} (h : ∀ x ∈ s.svc.queue, x.id ≠ e.id) (rep : Reply) :
    resultPresent e rep s =
      let s1 := s.onSvc fun x => { x with orphans := x.orphans.filter fun y => decide (y.id ≠ e.id) }
      if e.record then recordUnanswered e rep.code s1 else s1 := by
  rw [resultPresent, if_neg]
  simpa using h

theorem exists_id_map {l : List ReplyEntry} {id : Nat} (f : ReplyEntry → ReplyEntry) (hf : ∀ x, (f x).id = x.id)
    (h : ∃ x ∈ l, x.id = id) : ∃ x ∈ l.map f, x.id = id := by
  obtain ⟨x, hx, rfl⟩ := h
  exact ⟨f x, List.mem_map_of_mem hx, hf x⟩

/-- Settles O24: a row finds its entry as the model's search does, its owner keeps the entries, and a finished owner's reply goes into the
entry or the record. -/
theorem resultsBecomePresent : Obligations.ResultsBecomePresent := by
  unfold Obligations.ResultsBecomePresent
  intro s
  simp only [awaiting_eq]
  refine ⟨fun c kind hkind => ?_, fun n hn => ?_, fun n e rep u hn hfrom => ?_⟩
  · obtain ⟨r, hc⟩ := requestIn_of_requestKind hkind
    rw [exec_request hc]
    refine ⟨fun h => congrArg _ (serveRow_of_not_taken h r), fun h => ⟨_, _, rfl, serveRow_lastReply h r, ?_, fun hnobody => ?_⟩⟩
    · intro before e after hs hbefore hnone hasks
      exact serveRow_of_entry h (entryFor_of_oldest hc hs hbefore hnone hasks)
    · rw [serveRow_of_no_entry h (entryFor_of_nobody hc hnobody)]
      exact ⟨(own_kept r s).queue, (own_kept r s).orphans⟩
  · refine congrArg Host.Outcome.next ?_
    rw [completeService, hn]
  · have hanswer : answerOf e s = (rep, u) := by
      rcases hfrom with ⟨ha, rfl⟩ | ⟨hnone, h, c, v, hasks, hv, hrep, rfl⟩
      · rw [answerOf, ha]
      · exact answerOf_unanswered hnone h hasks hv hrep
    have hentries : u.svc.queue = s.svc.queue ∧ u.svc.orphans = s.svc.orphans := by
      rcases hfrom with ⟨-, rfl⟩ | ⟨-, -, -, v, -, -, -, rfl⟩ <;> exact ⟨rfl, rfl⟩
    obtain ⟨hqueue, horphans⟩ := hentries
    rw [← hqueue, ← horphans]
    refine ⟨fun hin hwaits => congrArg Host.Outcome.next ?_, fun hout hwaits => ?_⟩
    · have hpresent := resultPresent_of_queued hin rep
      refine (completeService_of_answer hn hanswer ?_).trans hpresent
      rw [hpresent]
      refine restartDue_of_held fun w id hw hid => ?_
      have hheld := exists_id_map (fun x => if x.id = e.id then { x with result := some rep } else x)
        (fun x => by split <;> rfl) (hwaits w id hw hid)
      rwa [List.map_append] at hheld
    · have hpresent := resultPresent_of_left hout rep
      have hdone := completeService_of_answer hn hanswer (by
        rw [hpresent]
        cases e.record <;> exact restartDue_of_held hwaits)
      exact ⟨fun hrec => congrArg Host.Outcome.next (by rw [hdone, hpresent, hrec]; rfl),
        fun hrec => congrArg Host.Outcome.next (by rw [hdone, hpresent, hrec]; rfl)⟩

end Sys2Proof.Machine
end

section
/-! SUPPORT. Roller measurement (Chapter 3): what each part of a measurement does to a channel (R38 to R53), and the distance that a run of
increments adds up to (R47, R48). -/

namespace Sys2Proof.Machine

/-! ### The parts of a measurement -/

/-- The remainder kept with floorDiv is the Euclidean one (00, Arithmetic and rounding). -/
theorem floorRem_eq_emod (n : Int) (d : Nat) : floorRem n d = n % (d : Int) := by
  rw [floorRem, floorDiv, Int.emod_def, Int.mul_comm]

/-- The force of a sample is clamped to the limit, and FORCE_SAT is set where the clamp acts (03 R51). -/
theorem takeForce_eq (limit : Nat) (force : Int) (ch : Channel) :
    takeForce limit force ch = { ch with
      force := max (-(limit : Int)) (min force limit)
      flags := { ch.flags with forceSat := ch.flags.forceSat || decide (limit < force.natAbs) } } := by
  unfold takeForce
  split
  · rename_i hin
    have hclamp : max (-(limit : Int)) (min force limit) = force := by omega
    have hsat : decide (limit < force.natAbs) = false := decide_eq_false (by omega)
    rw [hclamp, hsat, Bool.or_false]
  · rename_i hout
    have hclamp : max (-(limit : Int)) (min force limit) = if force < 0 then -(limit : Int) else limit := by
      split <;> omega
    have hsat : decide (limit < force.natAbs) = true := decide_eq_true (by omega)
    rw [hclamp, hsat, Bool.or_true]

/-- A status with FAULT raises DRIVE_FAULT, and one without it changes nothing (03 R52). -/
theorem driveFaultStep_eq (st : Status) (ch : Channel) :
    driveFaultStep st ch = ({ ch with
      latch := { ch.latch with driveFault := ch.latch.driveFault || st.fault }
      flags := { ch.flags with driveFault := ch.flags.driveFault || st.fault } }, st.fault) := by
  unfold driveFaultStep raiseFault
  cases st.fault <;> simp

/-- A stale sample moves the held-cycle count, and raises SAMPLE_STALE where the count passes the limit (03 R41, R42). -/
theorem staleSample_eq (limit k : Nat) (ch : Channel) :
    staleSample limit k ch =
      let c := satAt 65535 (ch.held + k)
      let raised := decide (ch.held ≤ limit) && decide (limit < c)
      ({ ch with
        held := c
        latch := { ch.latch with sampleStale := ch.latch.sampleStale || raised }
        flags := { ch.flags with sampleStale := ch.flags.sampleStale || raised } }, raised) := by
  unfold staleSample raiseFault
  simp only [← Bool.decide_and]
  split
  · rename_i h
    simp [h]
  · rename_i h
    simp [h]

/-- The first count is the baseline, and accumulates nothing (03 R44). -/
theorem countStep_first {ch : Channel} (h : ch.baseline = none) (cfg : RollersEntry) (t n : Nat) (count : BitVec 32) :
    countStep cfg t n count ch = ({ ch with baseline := some count }, false) := by
  simp [countStep, h]

/-- An increment beyond the jump limit makes the count the baseline and raises COUNT_JUMP (03 R46). -/
theorem countStep_jump {cfg : RollersEntry} {n : Nat} {count b : BitVec 32} {ch : Channel} (h : ch.baseline = some b)
    (hj : cfg.jumpLimit * n < (countIncrement cfg.direction count b).natAbs) (t : Nat) :
    countStep cfg t n count ch = (raiseFault .countJump { ch with baseline := some count }, true) := by
  simp [countStep, h, hj]

/-- An increment within the jump limit is accumulated (03 R47). -/
theorem countStep_accumulate {cfg : RollersEntry} {n : Nat} {count b : BitVec 32} {ch : Channel} (h : ch.baseline = some b)
    (hj : ¬ cfg.jumpLimit * n < (countIncrement cfg.direction count b).natAbs) (t : Nat) :
    countStep cfg t n count ch = (accumulate cfg t n count (countIncrement cfg.direction count b) ch, false) := by
  simp only [countStep, h, hj, if_false]

/-- The fraction an increment leaves is the remainder of its total (03 R47). -/
theorem accumulate_fraction (cfg : RollersEntry) (t n : Nat) (count : BitVec 32) (dc : Int) (ch : Channel) :
    ((accumulate cfg t n count dc ch).fraction : Int) = floorRem (dc * cfg.scale + ch.fraction) 65536 :=
  Int.toNat_of_nonneg (floorRem_range _ 65536 (by decide)).1

/-! ### The kinds of sample -/

/-- A channel as a measurement classifies its sample: the window trimmed to the active W (03 R38). -/
def Channel.trimmed (cfg : RollersEntry) (ch : Channel) : Channel := { ch with window := newest cfg.window ch.window }

/-- A channel with the sample's stamp and status recorded and no cycle held (03 R43, R53). -/
def Channel.stamped (sm : Sample) (ch : Channel) : Channel :=
  { ch with lastStamp := some sm.stamp, lastStatus := some sm.status, held := 0 }

/-- A channel with a sample's force and status handled (03 R51, R52). -/
def Channel.loaded (limit : Nat) (sm : Sample) (ch : Channel) : Channel :=
  { ch with
    force := max (-(limit : Int)) (min sm.force limit)
    latch := { ch.latch with driveFault := ch.latch.driveFault || sm.status.fault }
    flags := { ch.flags with
      driveFault := ch.flags.driveFault || sm.status.fault
      forceSat := ch.flags.forceSat || decide (limit < sm.force.natAbs) } }

theorem driveFaultStep_takeForce (limit : Nat) (sm : Sample) (ch : Channel) :
    driveFaultStep sm.status (takeForce limit sm.force ch) = (ch.loaded limit sm, sm.status.fault) := by
  rw [driveFaultStep_eq, takeForce_eq]
  rfl

theorem measure_stale {cfg : RollersEntry} {sm : Sample} {ch : Channel} (h : ch.lastStamp = some sm.stamp) (t k : Nat) :
    measure cfg t k false sm ch =
      let r := staleSample cfg.sampleMissLimit k (ch.trimmed cfg)
      { chan := r.1, fault := r.2, usable := false } := by
  simp [measure, h, Channel.trimmed]

theorem measure_resync (cfg : RollersEntry) (t k : Nat) (sm : Sample) (ch : Channel) :
    measure cfg t k true sm ch =
      { chan := Channel.loaded cfg.forceLimit sm { (ch.trimmed cfg).stamped sm with baseline := some sm.count, window := [] }
        fault := sm.status.fault, usable := true } := by
  simp only [measure, resyncSample, if_true, driveFaultStep_takeForce]
  rfl

/-- A fresh sample has its count handled first, then its force and status; either can raise a fault (03 R43). -/
theorem measure_fresh {cfg : RollersEntry} {sm : Sample} {ch c : Channel} {t k : Nat} {jump : Bool}
    (h : ch.lastStamp ≠ some sm.stamp)
    (hcount : countStep cfg t (ch.held + k) sm.count ((ch.trimmed cfg).stamped sm) = (c, jump)) :
    measure cfg t k false sm ch =
      { chan := c.loaded cfg.forceLimit sm, fault := jump || sm.status.fault, usable := true } := by
  simp only [Channel.trimmed, Channel.stamped] at hcount
  simp [measure, freshSample, h, hcount, driveFaultStep_takeForce]

/-- Settles O32, kind by kind of sample: stale, resync, and fresh with the first count, a jump, or an increment. -/
theorem samplesHandled : Obligations.SamplesHandled := by
  intro cfg t k sm ch trimmed reference
  refine ⟨fun hstamp => ?stale, measure_resync cfg t k sm ch, fun hstamp hbase => ?first, fun b hstamp hbase => ?fresh⟩
  case stale =>
    rw [measure_stale hstamp, staleSample_eq]
    rfl
  case first => exact measure_fresh hstamp (countStep_first (ch := (ch.trimmed cfg).stamped sm) hbase cfg t _ sm.count)
  case fresh =>
    intro m n dc jump dd appended
    have hbase' : ((ch.trimmed cfg).stamped sm).baseline = some b := hbase
    by_cases hj : cfg.jumpLimit * n < dc.natAbs
    · have hm : m = _ := measure_fresh hstamp (countStep_jump hbase' hj t)
      have hjump : jump = true := decide_eq_true hj
      rw [hm, hjump]
      exact ⟨rfl, rfl, rfl, rfl, rfl, rfl, rfl, rfl, (Bool.or_true _).symm, (Bool.or_true _).symm, rfl, rfl,
        fun _ => ⟨rfl, rfl, rfl, rfl⟩, nofun⟩
    · have hm : m = _ := measure_fresh hstamp (countStep_accumulate hbase' hj t)
      have hjump : jump = false := decide_eq_false hj
      rw [hm, hjump]
      exact ⟨rfl, rfl, rfl, rfl, rfl, rfl, rfl, rfl, (Bool.or_false _).symm, (Bool.or_false _).symm, rfl, rfl,
        nofun, fun _ => ⟨rfl, (accumulate_fraction cfg t n sm.count dc _).trans (floorRem_eq_emod ..), rfl, rfl⟩⟩

/-! ### Distance -/

theorem accumulate_fraction_lt (cfg : RollersEntry) (t n : Nat) (count : BitVec 32) (dc : Int) (ch : Channel) :
    (accumulate cfg t n count dc ch).fraction < 65536 := by
  have h := (floorRem_range (dc * cfg.scale + ch.fraction) 65536 (by decide)).2
  rw [← accumulate_fraction cfg t n count dc ch] at h
  exact_mod_cast h

/-- A channel's distance with its fraction, in parts of 65,536 (03 R47). -/
def Channel.travel (ch : Channel) : Int := ch.distance * 65536 + ch.fraction

/-- An increment adds itself times the scale to the distance with its fraction, up to the wrap of the distance (03 R47, R48). -/
theorem accumulate_travel (cfg : RollersEntry) (t n : Nat) (count : BitVec 32) (dc : Int) (ch : Channel) :
    (2 ^ 64 * 65536 : Int) ∣ (accumulate cfg t n count dc ch).travel - ch.travel - dc * cfg.scale := by
  have hsplit := floorDiv_mul_add (dc * cfg.scale + ch.fraction) 65536
  have hfraction := accumulate_fraction cfg t n count dc ch
  obtain ⟨w, hw⟩ : ((2 ^ 64 : Nat) : Int) ∣ (accumulate cfg t n count dc ch).distance
      - (ch.distance + floorDiv (dc * cfg.scale + ch.fraction) 65536) := Int.dvd_bmod_sub_self
  refine ⟨w, ?_⟩
  simp only [Channel.travel, hfraction]
  push_cast at hw hsplit ⊢
  linarith

/-- Over a run of increments the distance with its fraction grows by all of them times the scale (03 R47). -/
theorem foldl_accumulate_travel (cfg : RollersEntry) (t : Nat) (l : List (Nat × BitVec 32 × Int)) (ch : Channel) :
    (2 ^ 64 * 65536 : Int) ∣ (l.foldl (fun c x => accumulate cfg t x.1 x.2.1 x.2.2 c) ch).travel - ch.travel
      - (l.map fun x => x.2.2 * (cfg.scale : Int)).sum := by
  induction l generalizing ch with
  | nil => simp
  | cons x l ih =>
    obtain ⟨v, hv⟩ := accumulate_travel cfg t x.1 x.2.1 x.2.2 ch
    obtain ⟨w, hw⟩ := ih (accumulate cfg t x.1 x.2.1 x.2.2 ch)
    refine ⟨w + v, ?_⟩
    rw [List.foldl_cons, List.map_cons, List.sum_cons]
    linarith

theorem foldl_accumulate_fraction_lt (cfg : RollersEntry) (t : Nat) (l : List (Nat × BitVec 32 × Int)) {ch : Channel}
    (h : ch.fraction < 65536) : (l.foldl (fun c x => accumulate cfg t x.1 x.2.1 x.2.2 c) ch).fraction < 65536 := by
  induction l generalizing ch with
  | nil => exact h
  | cons x l ih => exact ih (accumulate_fraction_lt ..)

/-- The total of an increment fits 64 signed bits (03 R47). -/
theorem total_natAbs_lt {dc : Int} {scale fraction : Nat} (hdc : dc.natAbs ≤ 2 ^ 31) (hscale : scale < 2 ^ 32) (hf : fraction < 65536) :
    (dc * (scale : Int) + (fraction : Int)).natAbs < 2 ^ 63 := by
  have hmul : (dc * (scale : Int)).natAbs ≤ 2 ^ 31 * (2 ^ 32 - 1) := by
    rw [Int.natAbs_mul, Int.natAbs_natCast]
    exact Nat.mul_le_mul hdc (by omega)
  omega

end Sys2Proof.Machine
end

section
/-! SUPPORT. Who touches a roller's measurement (Chapter 3): groups, tables and publication leave every channel as it is; a channel's own sample
and the faults of its stage work, CLEAR, CLEAR_FLAGS, START and the reset events change it, and each keeps the fraction in range (R47). -/

namespace Sys2Proof.Machine

/-! ### Channels left as they are -/

/-- Every roller's measurement is as it was. -/
def ChannelsKept (s t : State) : Prop := ∀ i, (t.rollers.get i).chan = (s.rollers.get i).chan

theorem ChannelsKept.refl (s : State) : ChannelsKept s s := fun _ => rfl

theorem ChannelsKept.trans {s t u : State} (h : ChannelsKept s t) (k : ChannelsKept t u) : ChannelsKept s u :=
  fun i => (k i).trans (h i)

theorem ChannelsKept.of_rollers {s t : State} (h : t.rollers = s.rollers) : ChannelsKept s t := fun i => by rw [h]

theorem ChannelsKept.of_mapIdx {s t : State} {f : Fin 4 → Roller → Roller} (h : t.rollers = s.rollers.mapIdx f)
    (hf : ∀ i r, (f i r).chan = r.chan) : ChannelsKept s t := fun i => by rw [h, Quad.get_mapIdx, hf]

theorem ChannelsKept.of_chosen {s t : State} {m : Fin 4 → Bool} {f : Fin 4 → Roller → Roller}
    (h : t.rollers = s.rollers.mapIdx fun i r => if m i then f i r else r) (hf : ∀ i r, (f i r).chan = r.chan) : ChannelsKept s t :=
  .of_mapIdx h fun i r => by
    split
    · exact hf i r
    · rfl

theorem onGroup_channels (s : State) (g : Fin 4) (f : Group → Group) : ChannelsKept s (s.onGroup g f) := .refl s

theorem onMembers_channels (s : State) (g : Fin 4) {f : Roller → Roller} (hf : ∀ r, (f r).chan = r.chan) :
    ChannelsKept s (s.onMembers g f) := .of_chosen (m := isMember s.tables.active g) (f := fun _ => f) rfl fun _ => hf

theorem foldl_channels {α : Type} (f : State → α → State) (h : ∀ s a, ChannelsKept s (f s a)) (l : List α) (s : State) :
    ChannelsKept s (l.foldl f s) := by
  induction l generalizing s with
  | nil => exact .refl s
  | cons a l ih => exact (h s a).trans (ih _)

/-! ### Stages -/

theorem enableDirection_chan (r : Roller) : (enableDirection r).chan = r.chan := by
  unfold enableDirection
  split <;> rfl

theorem testApply_chan (band : Nat) (r : Roller) : (testApply band r).chan = r.chan := by
  rw [testApply_eq]
  split <;> rfl

theorem testHeld_chan (band : Nat) (r : Roller) : (testHeld band r).chan = r.chan := by
  unfold testHeld
  split
  · split <;> rfl
  · exact testApply_chan band r

theorem releaseDirection_chan (band : Nat) (r : Roller) : (releaseDirection band r).chan = r.chan := by
  unfold releaseDirection
  split
  · exact testHeld_chan band _
  · rfl

theorem applyDirection_chan (band : Nat) (r : Roller) : (applyDirection band r).chan = r.chan := by
  unfold applyDirection
  split
  · exact testHeld_chan band _
  · rfl

/-! ### Group states -/

theorem discardTrack_channels (g : Fin 4) (s : State) : ChannelsKept s (discardTrack g s) :=
  (onMembers_channels s g fun _ => by rfl).trans (onGroup_channels _ g _)

theorem forceMembers_channels (g : Fin 4) (s : State) : ChannelsKept s (forceMembers g s) := onMembers_channels s g fun _ => rfl

theorem enterStopping_channels (c : StopCause) (g : Fin 4) (s : State) : ChannelsKept s (enterStopping c g s) :=
  (discardTrack_channels g s).trans (onGroup_channels _ g _)

theorem enterFaulted_channels (g : Fin 4) (s : State) : ChannelsKept s (enterFaulted g s) := onGroup_channels s g _

theorem faultIfNoneReleased_channels (g : Fin 4) (s : State) : ChannelsKept s (faultIfNoneReleased g s) := by
  unfold faultIfNoneReleased
  split
  · exact .refl s
  · exact enterFaulted_channels g s

theorem windDownTest_channels (g : Fin 4) (s : State) : ChannelsKept s (windDownTest g s) := by
  unfold windDownTest
  split
  · exact enterFaulted_channels g s
  · exact .refl s

/-- A hard fault event acts on stages and groups, not on measurements (07 R126). -/
theorem groupFault_channels (g : Fin 4) (s : State) : ChannelsKept s (groupFault g s) := by
  have hforced : ChannelsKept s (enterFaulted g (forceMembers g s)) :=
    (forceMembers_channels g s).trans (enterFaulted_channels g _)
  have hstopped : ChannelsKept s (faultIfNoneReleased g (enterStopping .rollerFault g s)) :=
    (enterStopping_channels _ g s).trans (faultIfNoneReleased_channels g _)
  unfold groupFault
  split
  · exact .refl s
  · exact .refl s
  · exact hforced
  · exact hforced
  · exact hstopped
  · exact hstopped
  · exact hstopped
  · split
    · exact windDownTest_channels g s
    · exact (onGroup_channels s g _).trans (faultIfNoneReleased_channels g _)

theorem hardFaultEvent_channels (i : Fin 4) (s : State) : ChannelsKept s (hardFaultEvent i s) := by
  unfold hardFaultEvent
  split
  · exact groupFault_channels _ s
  · exact .refl s

theorem lineFault_channels (s : State) : ChannelsKept s (lineFault s) := fun i => by
  rw [lineFault_rollers]
  split <;> rfl

theorem settleExpiry_channels (g : Fin 4) (s : State) : ChannelsKept s (settleExpiry g s) :=
  ((forceMembers_channels g s).trans (enterFaulted_channels g _)).trans (onGroup_channels _ g _)

theorem settleAdvance_channels (g : Fin 4) (k n : Nat) (s : State) : ChannelsKept s (settleAdvance g k n s) := by
  unfold settleAdvance
  simp only
  split
  · exact settleExpiry_channels g s
  · exact onGroup_channels s g _

theorem stopIfNoneReleased_channels (g : Fin 4) (s : State) : ChannelsKept s (stopIfNoneReleased g s) := by
  unfold stopIfNoneReleased
  split
  · exact .refl s
  · exact onGroup_channels s g _

theorem completeStop_channels (g : Fin 4) (s : State) : ChannelsKept s (completeStop g s) := by
  unfold completeStop
  split
  · exact ((onGroup_channels s g _).trans (onMembers_channels _ g (applyDirection_chan _))).trans (stopIfNoneReleased_channels g _)
  · exact onGroup_channels s g _

theorem settleStep_channels (g : Fin 4) (k : Nat) (s : State) : ChannelsKept s (settleStep g k s) := by
  unfold settleStep
  split
  · exact settleAdvance_channels g k _ s
  · split
    · exact onGroup_channels s g _
    · exact .refl s

theorem settleWindDown_channels (g : Fin 4) (k : Nat) (s : State) : ChannelsKept s (settleWindDown g k s) := by
  unfold settleWindDown
  split
  · split
    · exact settleAdvance_channels g k _ s
    · exact onGroup_channels s g _
  · exact .refl s

theorem stopTests_channels (g : Fin 4) (k : Nat) (s : State) : ChannelsKept s (stopTests g k s) := by
  unfold stopTests
  split
  · split
    · exact settleWindDown_channels g k s
    · split
      · exact completeStop_channels g s
      · exact settleStep_channels g k s
  · exact .refl s

theorem engagingTests_channels (g : Fin 4) (s : State) : ChannelsKept s (engagingTests g s) := by
  unfold engagingTests
  split
  · split
    · exact onMembers_channels s g (releaseDirection_chan _)
    · split
      · exact onGroup_channels s g _
      · exact .refl s
  · exact .refl s

theorem disengagingTest_channels (g : Fin 4) (s : State) : ChannelsKept s (disengagingTest g s) := by
  unfold disengagingTest
  split
  · exact onGroup_channels s g _
  · exact .refl s

theorem groupTests_channels (g : Fin 4) (k : Nat) (s : State) : ChannelsKept s (groupTests g k s) := by
  unfold groupTests
  split
  · exact (((stopTests_channels g k s).trans (windDownTest_channels g _)).trans (engagingTests_channels g _)).trans
      (disengagingTest_channels g _)
  · exact .refl s

/-- A group's step leaves every measurement as it is (04 R58). -/
theorem stepGroup_channels (g : Fin 4) (k : Nat) (s : State) : ChannelsKept s (stepGroup g k s) := by
  unfold stepGroup handOn
  exact ((onGroup_channels s g _).trans (groupTests_channels g k _)).trans (onGroup_channels _ g _)

/-! ### Composition -/

theorem endTrack_channels (g : Fin 4) (s : State) : ChannelsKept s (endTrack g s) :=
  (discardTrack_channels g s).trans (onGroup_channels _ g _)

theorem blendStep_channels (g : Fin 4) (k : Nat) (s : State) : ChannelsKept s (blendStep g k s) := by
  unfold blendStep moveTrackBlend
  split
  · simp only
    split
    · exact (onGroup_channels s g _).trans (endTrack_channels g _)
    · exact onGroup_channels s g _
  · exact .refl s

theorem advanceRefs_channels (g : Fin 4) (k : Nat) (s : State) : ChannelsKept s (advanceRefs g k s) := by
  unfold advanceRefs
  split
  · exact onMembers_channels s g fun _ => rfl
  · exact .refl s

theorem loseTrack_channels (g : Fin 4) (s : State) : ChannelsKept s (loseTrack g s) :=
  (enterStopping_channels _ g s).trans (onGroup_channels _ g _)

theorem checkTrack_channels (g : Fin 4) (k : Nat) (s : State) : ChannelsKept s (checkTrack g k s) := by
  unfold checkTrack
  simp only
  split
  · exact (advanceRefs_channels g k s).trans (loseTrack_channels g _)
  · exact advanceRefs_channels g k s

theorem markClamp_channels (g : Fin 4) (comps : Quad Composed) (s : State) : ChannelsKept s (markClamp g comps s) := by
  unfold markClamp
  split
  · exact onGroup_channels s g _
  · exact .refl s

theorem keepAll_channels (g : Fin 4) (comps : Quad Composed) (s : State) : ChannelsKept s (keepAll g comps s) :=
  .of_chosen (m := isMember s.tables.active g) (f := fun i => keepComposed (comps.get i)) rfl fun _ _ => rfl

/-- A composition reads the measurements and changes none (05 R79). -/
theorem composeGroup_channels (g : Fin 4) (k : Nat) (sp : State × Quad Int) : ChannelsKept sp.1 (composeGroup g k sp).1 :=
  (((checkTrack_channels g k sp.1).trans (markClamp_channels g _ _)).trans (keepAll_channels g _ _)).trans (blendStep_channels g k _)

theorem groupTakes_channels (k : Nat) (g : Fin 4) (sp : State × Quad Int) : ChannelsKept sp.1 (groupTakes k g sp).1 :=
  (stepGroup_channels g k sp.1).trans (composeGroup_channels g k _)

theorem groupsTake_channels (k : Nat) (s : State) : ChannelsKept s (groupsTake k s).1 :=
  (((groupTakes_channels k 0 _).trans (groupTakes_channels k 1 _)).trans (groupTakes_channels k 2 _)).trans (groupTakes_channels k 3 _)

theorem publish_channels (outs : Quad Int) (s : State) : ChannelsKept s (publish outs s) := fun i => by
  rw [publish_rollers, testApply_chan]

/-! ### Tables -/

/-- An application leaves every measurement as it is (08 R149). -/
theorem applyTables_channels (new : Tables) (blend : Option Nat) (s : State) : ChannelsKept s (applyTables new blend s) :=
  .of_mapIdx rfl fun i r => rejoined_chan _ _ i r

theorem onTables_channels (s : State) (f : TableManager → TableManager) : ChannelsKept s (s.onTables f) := .refl s

theorem takeLiveDue_channels (p : Place) (s : State) : ChannelsKept s (takeLiveDue p s) := by
  rcases takeLiveDue_cases p s with ⟨-, h⟩ | ⟨-, -, h⟩ | ⟨-, -, h⟩ <;> rw [h]
  · exact .refl s
  · exact (onTables_channels s _).trans (applyTables_channels _ _ _)
  · exact .refl s

theorem takeRecord_channels (r : ChangeRecord) (s : State) : ChannelsKept s (takeRecord r s) := by
  rcases takeRecord_cases r s with ⟨-, h⟩ | ⟨-, h⟩ <;> rw [h]
  · exact (onTables_channels s _).trans (applyTables_channels _ _ _)
  · exact .refl s

theorem takeRecords_channels (e : Nat) (l : List ChangeRecord) (s : State) : ChannelsKept s (takeRecords e l s) := by
  induction l generalizing s with
  | nil => exact .refl s
  | cons r rest ih =>
    unfold takeRecords
    split
    · exact (takeRecord_channels r s).trans (ih _)
    · exact .refl s

theorem tableWork_channels (e : Nat) (s : State) : ChannelsKept s (tableWork e s) :=
  (foldl_channels _ (fun s p => takeLiveDue_channels p s) placesInOrder s).trans (takeRecords_channels e _ _)

theorem haltRun_channels (s : State) : ChannelsKept s (haltRun s) := by
  have hends : ChannelsKept s (runEnds s) := runEnds_chan s
  have htaken : ChannelsKept (runEnds s) (haltAllLiveDue (runEnds s)) := (haltAllLiveDue_taken (runEnds_ended s)).1.chan
  exact (hends.trans htaken).trans (onTables_channels _ dropChanges)

/-! ### Fractions in range -/

/-- The fraction of every roller that was in range still is (03 R47). -/
def FractionsKept (s t : State) : Prop := ∀ i, (s.rollers.get i).chan.fraction < 65536 → (t.rollers.get i).chan.fraction < 65536

theorem FractionsKept.refl (s : State) : FractionsKept s s := fun _ => id

theorem FractionsKept.trans {s t u : State} (h : FractionsKept s t) (k : FractionsKept t u) : FractionsKept s u :=
  fun i => k i ∘ h i

theorem ChannelsKept.fractions {s t : State} (h : ChannelsKept s t) : FractionsKept s t := fun i => by rw [h i]; exact id

theorem FractionsKept.of_rollers {s t : State} (h : t.rollers = s.rollers) : FractionsKept s t := (ChannelsKept.of_rollers h).fractions

theorem FractionsKept.of_mapIdx {s t : State} {f : Fin 4 → Roller → Roller} (h : t.rollers = s.rollers.mapIdx f)
    (hf : ∀ i r, r.chan.fraction < 65536 → (f i r).chan.fraction < 65536) : FractionsKept s t := fun i => by
  rw [h, Quad.get_mapIdx]
  exact hf i _

theorem foldl_fractions {α : Type} (f : State → α → State) (h : ∀ s a, FractionsKept s (f s a)) (l : List α) (s : State) :
    FractionsKept s (l.foldl f s) := by
  induction l generalizing s with
  | nil => exact .refl s
  | cons a l ih => exact (h s a).trans (ih _)

/-! ### The accepted cycle -/

theorem raiseFault_fraction (c : Cause) (ch : Channel) : (raiseFault c ch).fraction = ch.fraction := by
  cases c <;> rfl

theorem countStep_fraction (cfg : RollersEntry) (t n : Nat) (count : BitVec 32) {ch : Channel} (h : ch.fraction < 65536) :
    (countStep cfg t n count ch).1.fraction < 65536 := by
  cases hb : ch.baseline with
  | none =>
    rw [countStep_first hb]
    exact h
  | some b =>
    by_cases hj : cfg.jumpLimit * n < (countIncrement cfg.direction count b).natAbs
    · rw [countStep_jump hb hj, raiseFault_fraction]
      exact h
    · rw [countStep_accumulate hb hj]
      exact accumulate_fraction_lt ..

theorem measure_fraction (cfg : RollersEntry) (t k : Nat) (resync : Bool) (sm : Sample) {ch : Channel} (h : ch.fraction < 65536) :
    (measure cfg t k resync sm ch).chan.fraction < 65536 := by
  cases resync with
  | true =>
    rw [measure_resync]
    exact h
  | false =>
    by_cases hstamp : ch.lastStamp = some sm.stamp
    · rw [measure_stale hstamp, staleSample_eq]
      exact h
    · rw [measure_fresh hstamp rfl]
      exact countStep_fraction cfg t _ sm.count (ch := (ch.trimmed cfg).stamped sm) h

theorem sampleStep_fraction (x : Status) (r : Roller) : (sampleStep x r).1.chan.fraction = r.chan.fraction := by
  unfold sampleStep
  split
  · rfl
  · exact raiseFault_fraction _ _

theorem timerStep_fraction (timeout k : Nat) (r : Roller) : (timerStep timeout k r).1.chan.fraction = r.chan.fraction := by
  unfold timerStep
  split
  · rfl
  · simp only
    split
    · exact raiseFault_fraction _ _
    · rfl

/-- Of a measurement the stage work changes only the flags and the latch (06 R106, R108). -/
theorem stageWork_fraction (timeout band k : Nat) (x : Option Status) (r : Roller) :
    (stageWork timeout band k x r).1.chan.fraction = r.chan.fraction := by
  have htested (u : Roller) (h : u.chan.fraction = r.chan.fraction) : (testHeld band u).chan.fraction = r.chan.fraction := by
    rw [testHeld_chan, h]
  cases x with
  | none =>
    simp only [stageWork]
    split
    · exact htested r rfl
    · rw [timerStep_fraction]
      exact htested r rfl
  | some st =>
    simp only [stageWork]
    split
    · exact htested _ (sampleStep_fraction st r)
    · rw [timerStep_fraction]
      exact htested _ (sampleStep_fraction st r)

theorem takeSample_fraction (k : Nat) (resync : Bool) (cfg : RollersEntry) (t band : Nat) (sm : Sample) {r : Roller}
    (h : r.chan.fraction < 65536) : (takeSample k resync cfg t band sm r).1.chan.fraction < 65536 := by
  simp only [takeSample, stageWork_fraction]
  exact measure_fraction cfg t k resync sm h

theorem onRoller_fractions (s : State) (i : Fin 4) {f : Roller → Roller}
    (hf : (s.rollers.get i).chan.fraction < 65536 → (f (s.rollers.get i)).chan.fraction < 65536) : FractionsKept s (s.onRoller i f) := by
  intro j hj
  show ((s.rollers.set i _).get j).chan.fraction < 65536
  rw [Quad.get_set]
  split
  · rename_i hji
    exact hf (hji ▸ hj)
  · exact hj

theorem channelTakes_fractions (k : Nat) (resync : Bool) (i : Fin 4) (s : State) : FractionsKept s (channelTakes k resync i s) := by
  unfold channelTakes
  split
  · exact .refl s
  · rename_i sm _
    have htaken := onRoller_fractions s i (f := fun _ => (takeSample k resync (s.tables.active.rollers.get i) (periodOf s) (bandOf s) sm
      (s.rollers.get i)).1) (takeSample_fraction k resync _ _ _ sm)
    simp only
    split
    · exact htaken.trans (hardFaultEvent_channels i _).fractions
    · exact htaken

theorem channelsTake_fractions (order : List (Fin 4)) (k : Nat) (resync : Bool) (s : State) :
    FractionsKept s (channelsTake order k resync s) :=
  (foldl_fractions _ (fun s i => channelTakes_fractions k resync i s) _ s).trans (.of_rollers rfl)

/-- An accepted cycle keeps every fraction in range (03 R47). -/
theorem acceptedCycle_fractions (order : List (Fin 4)) (e k : Nat) (resync : Bool) (s : State) :
    FractionsKept s (acceptedCycle order e k resync s) := by
  obtain ⟨hpublished, -⟩ := acceptedCycle_published order e k resync s
  have hcomposed : FractionsKept s (composedCycle order e k resync s).1 :=
    ((tableWork_channels e s).fractions.trans (channelsTake_fractions order k resync _)).trans (groupsTake_channels k _).fractions
  exact (hcomposed.trans (publish_channels _ _).fractions).trans (.of_rollers hpublished)

/-! ### Requests and the reply queue -/

theorem beginEngage_channels (g : Fin 4) (s : State) : ChannelsKept s (beginEngage g s) :=
  (onGroup_channels s g _).trans (onMembers_channels _ g enableDirection_chan)

theorem beginDisengage_channels (g : Fin 4) (s : State) : ChannelsKept s (beginDisengage g s) :=
  (onGroup_channels s g _).trans (onMembers_channels _ g (applyDirection_chan _))

theorem beginTrack_channels (g : Fin 4) (s : State) : ChannelsKept s (beginTrack g s) :=
  (onMembers_channels s g fun _ => by rfl).trans (onGroup_channels _ g _)

/-- CLEAR changes the latch of a member's channel alone (07 R122). -/
theorem clearGroup_fractions (g : Fin 4) (s : State) : FractionsKept s (clearGroup g s) :=
  .of_mapIdx (f := fun i r => if isMember s.tables.active g i then { r with chan := { r.chan with latch := Latch.clear } } else r) rfl
    fun i r h => by split <;> exact h

theorem groupAction_fractions {a : Nat} {act : Fin 4 → State → Acted} (h : groupAction a = some act) (g : Fin 4) (s : State) :
    FractionsKept s (act g s).2 := by
  unfold groupAction at h
  split at h <;> first | (obtain rfl := Option.some.inj h) | cases h
  · unfold actEngage
    repeat' split
    all_goals first | exact .refl s | exact (beginEngage_channels g s).fractions
  · unfold actRun
    split <;> exact .refl s
  · unfold actTrack
    repeat' split
    all_goals first | exact .refl s | exact (beginTrack_channels g s).fractions
  · unfold actUntrack
    repeat' split
    all_goals exact .refl s
  · unfold actStop
    split
    all_goals first | exact .refl s | exact (enterStopping_channels _ g s).fractions
  · unfold actDisengage
    split
    all_goals first | exact .refl s | exact (beginDisengage_channels g s).fractions
  · unfold actClear
    repeat' split
    all_goals first | exact .refl s | exact clearGroup_fractions g s

theorem ownGroup_fractions (g a : Byte) (s : State) : FractionsKept s (ownGroup g a s).2 := by
  unfold ownGroup
  split
  · exact .refl s
  · split
    · exact .refl s
    · rename_i act hact
      repeat' split
      all_goals first | exact .refl s | exact groupAction_fractions hact _ s

theorem ownStart_fractions (s : State) : FractionsKept s (ownStart s).2 := by
  unfold ownStart
  repeat' split
  all_goals first | exact .refl s | exact .of_mapIdx (f := fun _ r => Roller.initial r.chan.flags) rfl fun _ _ _ => Nat.succ_pos _

theorem ownHalt_channels (s : State) : ChannelsKept s (ownHalt s).2 := by
  unfold ownHalt
  repeat' split
  all_goals first | exact .refl s | exact haltRun_channels s

theorem ownWriteEntry_channels (t i : Byte) (bs : List Byte) (s : State) : ChannelsKept s (ownWriteEntry t i bs s).2 := by
  have hpassed (p : Place) (e : Entry) : ChannelsKept s (writePassed p e s).2 := by
    unfold writePassed
    simp only
    repeat' split
    all_goals first | exact .refl s | exact (onTables_channels s _).trans (applyTables_channels _ _ _)
  unfold ownWriteEntry writeAt
  repeat' split
  all_goals first | exact .refl s | exact hpassed _ _

theorem noteStation_channels (mask : Byte) (s : State) : ChannelsKept s (noteStation mask s) := by
  unfold noteStation
  split <;> exact .refl s

theorem ownCommit_channels (mask presence : Byte) (effective : BitVec 64) (blend : BitVec 16) (s : State) :
    ChannelsKept s (ownCommit mask presence effective blend s).2 := by
  unfold ownCommit commitActive commitBypass acceptCommit
  simp only
  repeat' split
  all_goals first
    | exact .refl s
    | exact (applyTables_channels _ _ s).trans (noteStation_channels mask _)

/-- Every request's owner keeps every fraction in range. -/
theorem own_fractions (r : Request) (s : State) : FractionsKept s (own r s).2 := by
  cases r with
  | identify => exact .refl s
  | readStatus => exact .refl s
  | clearFlags m => exact .of_mapIdx (f := fun i r => { r with chan := { r.chan with flags := r.chan.flags.clear m i } }) rfl fun _ _ h => h
  | start => exact ownStart_fractions s
  | halt => exact (ownHalt_channels s).fractions
  | group g a => exact ownGroup_fractions g a s
  | readEntry t i c =>
    show FractionsKept s (ownReadEntry t i c s).2
    unfold ownReadEntry
    simp only
    repeat' split
    all_goals exact .refl s
  | writeEntry t i e => exact (ownWriteEntry_channels t i e s).fractions
  | setLive t v =>
    show FractionsKept s (ownSetLive t v s).2
    unfold ownSetLive
    simp only
    repeat' split
    all_goals exact .refl s
  | commit m p e b => exact (ownCommit_channels m p e b s).fractions
  | cancel m =>
    show FractionsKept s (ownCancel m s).2
    unfold ownCancel
    simp only
    split <;> exact .refl s
  | lock m md =>
    show FractionsKept s (ownLock m md s).2
    unfold ownLock
    repeat' split
    all_goals exact .refl s
  | freeze =>
    show FractionsKept s (ownFreeze s).2
    unfold ownFreeze withFreezeEntry
    simp only [freezeReply]
    split <;> exact .refl s
  | thaw =>
    show FractionsKept s (ownThaw s).2
    unfold ownThaw
    split <;> exact .refl s
  | traceSet g d e => exact .of_rollers (by rw [own, ownTraceSet_only])
  | readTrace => exact .of_rollers (by rw [own, ownReadTrace_only])
  | storeSave => exact .of_rollers (by rw [own, ownStoreSave_only])
  | restart => exact .of_rollers (by rw [own, ownRestart_only])

theorem linkRestart_rollers (e : ReplyEntry) (rep : Reply) (s : State) : (linkRestart e rep s).rollers = s.rollers := by
  rw [linkRestart_only]

theorem serveNow_fractions (r : Request) (s : State) : FractionsKept s (serveNow r s).2 := own_fractions r s

theorem serveRow_fractions (r : Request) (s : State) : FractionsKept s (serveRow r s) := by
  unfold serveRow
  split
  · simp only
    split
    · exact (serveNow_fractions r s).trans (.of_rollers (linkRestart_rollers _ _ _))
    · exact serveNow_fractions r s
  · exact .refl s

theorem answerOf_fractions (e : ReplyEntry) (s : State) : FractionsKept s (answerOf e s).2 := by
  unfold answerOf
  split
  · exact .refl s
  · split
    · exact (serveNow_fractions _ s).trans (.of_rollers (linkRestart_rollers _ _ _))
    · exact .refl s

/-- A reset event leaves a fraction of 0 (03 R56). -/
theorem FractionsKept.of_reset {s t u : State} {keep : Bool} (h : t.rollers = (resetValues keep u).rollers) : FractionsKept s t := fun i _ => by
  rw [h, show (resetValues keep u).rollers.get i = Roller.initial _ from Quad.get_mapIdx _ _ i]
  exact Nat.succ_pos _

theorem afterQueue_fractions (s : State) : FractionsKept s (afterQueue s) := by
  unfold afterQueue
  split
  · exact .of_reset (keep := true) (u := serveOutstanding s) rfl
  · exact .refl s

theorem resultPresent_rollers (e : ReplyEntry) (rep : Reply) (s : State) : (resultPresent e rep s).rollers = s.rollers := by
  unfold resultPresent
  simp only
  repeat' split
  all_goals rfl

theorem completeService_fractions (n : Nat) (s : State) : FractionsKept s (completeService n s) := by
  unfold completeService
  split
  · exact ((answerOf_fractions _ s).trans (.of_rollers (resultPresent_rollers _ _ _))).trans (afterQueue_fractions _)
  · exact .refl s

theorem dropEntry_rollers (e : ReplyEntry) (s : State) : (dropEntry e s).rollers = s.rollers := by
  unfold dropEntry
  split <;> rfl

theorem dropSilently_rollers (e : ReplyEntry) (s : State) : (dropSilently e s).rollers = s.rollers := by
  unfold dropSilently
  split <;> rfl

theorem matchReturn_fractions (cycle : BitVec 16) (s : State) : FractionsKept s (matchReturn cycle s).2 := by
  unfold matchReturn
  split
  · exact foldl_fractions _ (fun s e => .of_rollers (dropEntry_rollers e s)) _ s
  · exact .refl s

theorem takeRequest_rollers (kind : Byte) (len : Nat) (payload : List Byte) (cycle : BitVec 16) (s : State) :
    (takeRequest kind len payload cycle s).rollers = s.rollers := by
  show (makeRoom s).rollers = s.rollers
  unfold makeRoom
  repeat' split
  all_goals first | rfl | exact dropEntry_rollers _ s

/-! ### The line -/

theorem onLpu_fractions (s : State) (f : Lpu → Lpu) : FractionsKept s (s.onLpu f) := .of_rollers rfl

theorem silenceExpiry_fractions (s : State) : FractionsKept s (silenceExpiry s) := by
  unfold silenceExpiry
  exact (onLpu_fractions s _).trans (lineFault_channels _).fractions

theorem elapse_fractions (inclusive : Bool) (dt : Nat) (s : State) : FractionsKept s (elapse inclusive dt s) := by
  have hsilent (b : Bool) : FractionsKept s (if b then silenceExpiry s else s) := by
    split
    · exact silenceExpiry_fractions s
    · exact .refl s
  unfold elapse
  simp only
  split
  · exact .of_reset (keep := true) (u := serveOutstanding s) rfl
  · split
    · exact .of_reset (keep := true) (u := serveOutstanding _) rfl
    · exact (hsilent _).trans (.of_rollers rfl)

theorem headerArrives_fractions (port : Port) (f : LinkFrame) (s : State) : FractionsKept s (headerArrives port f s) := by
  have hmatch : FractionsKept s (if (newPass s f).followed then matchReturn (frameCycle f.bytes) s else (none, s)).2 := by
    split
    · exact matchReturn_fractions _ s
    · exact .refl s
  unfold headerArrives
  split
  · cases port with
    | m => exact .of_rollers rfl
    | d =>
      refine FractionsKept.trans ?_ (afterQueue_fractions _)
      exact hmatch.trans (.of_rollers rfl)
  · exact .refl s

theorem latchFirst_rollers (s : State) : (latchFirst s).rollers = s.rollers := by
  unfold latchFirst
  repeat' split
  all_goals rfl

theorem passOutField_rollers (i : Fin 4) (s : State) : (passOutField i s).rollers = s.rollers := by
  unfold passOutField
  repeat' split
  all_goals rfl

theorem passInField_rollers (i : Fin 4) (s : State) : (passInField i s).rollers = s.rollers := by
  unfold passInField
  repeat' split
  all_goals rfl

theorem passReport_rollers (s : State) : (passReport s).rollers = s.rollers := by
  unfold passReport
  repeat' split
  all_goals rfl

theorem answerFrame_rollers (p : Pass) (e : ReplyEntry) (s : State) : (answerFrame p e s).rollers = s.rollers := by
  unfold answerFrame
  split
  · rfl
  · exact dropEntry_rollers e s

theorem passService_fractions (s : State) : FractionsKept s (passService s) := by
  unfold passService
  split
  · split
    · split
      · exact (FractionsKept.of_rollers (answerFrame_rollers _ _ s)).trans (afterQueue_fractions _)
      · exact .refl s
    · exact .refl s
  · exact .refl s

theorem takeFromFrame_rollers (p : Pass) (s : State) : (takeFromFrame p s).rollers = s.rollers := by
  unfold takeFromFrame
  split
  · exact takeRequest_rollers _ _ _ _ s
  · rfl

theorem closeOut_fractions (s : State) : FractionsKept s (closeOut s) := by
  unfold closeOut
  split
  · split
    · simp only
      split
      · exact .of_rollers rfl
      · split
        · refine FractionsKept.trans ?_ (afterQueue_fractions _)
          exact .of_rollers (takeFromFrame_rollers _ _)
        · exact .of_rollers rfl
    · exact .refl s
  · exact .refl s

theorem cutCheck_rollers (p : Pass) (s : State) : (cutCheck p s).rollers = s.rollers := by
  unfold cutCheck
  split <;> rfl

theorem cutReply_rollers (p : Pass) (s : State) : (cutReply p s).rollers = s.rollers := by
  unfold cutReply
  split
  · split
    · exact dropSilently_rollers _ s
    · rfl
  · rfl

theorem cutShort_fractions (port : Port) (s : State) : FractionsKept s (cutShort port s) := by
  unfold cutShort
  cases port with
  | m =>
    simp only
    split
    · split
      · exact .of_rollers (cutCheck_rollers _ _)
      · exact .refl s
    · exact .refl s
  | d =>
    simp only
    split
    · split
      · refine FractionsKept.trans ?_ (afterQueue_fractions _)
        exact .of_rollers ((cutReply_rollers _ _).trans (cutCheck_rollers _ _))
      · exact .refl s
    · exact .refl s

theorem acceptResync_fractions (order : List (Fin 4)) (e gap : Nat) (cycle : BitVec 16) (s : State) :
    FractionsKept s (acceptResync order e gap cycle s) := by
  unfold acceptResync
  refine FractionsKept.trans ?_ (acceptedCycle_fractions order _ 1 true _)
  exact ((onLpu_fractions s _).trans (lineFault_channels _).fractions).trans (onLpu_fractions _ _)

/-- However a good return frame is classified, every fraction stays in range (01 R14). -/
theorem classify_fractions (order : List (Fin 4)) (cycle : BitVec 16) (s : State) : FractionsKept s (classify order cycle s) := by
  unfold classify
  split
  · exact (onLpu_fractions s _).trans (acceptedCycle_fractions order _ _ _ _)
  · simp only
    split
    · exact acceptResync_fractions order _ _ cycle s
    · split
      · exact onLpu_fractions s _
      · split
        · exact ((onLpu_fractions s _).trans (onLpu_fractions _ _)).trans (acceptedCycle_fractions order _ _ _ _)
        · exact acceptResync_fractions order _ _ cycle s

theorem goodReturn_fractions (order : List (Fin 4)) (p : Pass) (s : State) : FractionsKept s (goodReturn order p s) := by
  unfold goodReturn
  split
  · exact .refl s
  · split
    · exact classify_fractions order _ s
    · exact .refl s

theorem closeReturn_fractions (dt : Nat) (order : List (Fin 4)) (s : State) : FractionsKept s (closeReturn dt order s) := by
  have helapsed := elapse_fractions false dt s
  unfold closeReturn
  simp only
  generalize elapse false dt s = u at helapsed ⊢
  split
  · rename_i p _
    split
    · split
      · exact helapsed
      · split
        · exact helapsed.trans (goodReturn_fractions order p { u with retPass := none, sentM := some (sentFrame p) })
        · exact helapsed
    · exact .refl s
  · exact .refl s

/-! ### Every command -/

theorem assertReset_fractions (a b : Nat) (s : State) : FractionsKept s (assertReset a b s) := by
  unfold assertReset
  split
  · exact .refl s
  · split
    · exact .of_reset (keep := false) (u := s) rfl
    · exact .refl s

theorem loadComplete_rollers (s : State) : (loadComplete s).rollers = s.rollers := by
  unfold loadComplete completeLoad withFreezeEntry loadTables
  simp only
  repeat' split
  all_goals rfl

theorem saveDone_rollers (v : Bool) (s : State) : (saveDone v s).rollers = s.rollers := by
  unfold saveDone
  repeat' split
  all_goals rfl

theorem stageExpires_fractions (i : Fin 4) (s : State) : FractionsKept s (stageExpires i s) := by
  unfold stageExpires
  split
  · exact (onRoller_fractions s i fun h => by rw [timeOut, raiseFault_fraction]; exact h).trans (hardFaultEvent_channels i _).fractions
  · exact .refl s

theorem settleExpires_channels (g : Fin 4) (s : State) : ChannelsKept s (settleExpires g s) := by
  unfold settleExpires
  split
  · exact settleExpiry_channels g s
  · exact .refl s

theorem trackBlendOut_channels (g : Fin 4) (s : State) : ChannelsKept s (trackBlendOut g s) := by
  unfold trackBlendOut
  split
  · exact endTrack_channels g s
  · exact .refl s

/-- Every command answers a next state, in which every fraction that was in range still is. -/
theorem exec_fractions (c : Instr) (s : State) : ∃ t, exec c s = .next t ∧ FractionsKept s t := by
  cases c with
  | returnCheckWord dt order => exact ⟨_, rfl, closeReturn_fractions dt order s⟩
  | powerUp => exact ⟨_, rfl, .of_reset (keep := false) (u := s) rfl⟩
  | powerDown => exact ⟨_, rfl, .of_reset (keep := false) (u := s) rfl⟩
  | resetAssert a b => exact ⟨_, rfl, assertReset_fractions a b s⟩
  | resetRelease => exact ⟨_, rfl, .refl s⟩
  | storeLoadComplete => exact ⟨_, rfl, .of_rollers (loadComplete_rollers s)⟩
  | passHeader port f => exact ⟨_, rfl, headerArrives_fractions port f s⟩
  | frameCutShort port => exact ⟨_, rfl, cutShort_fractions port s⟩
  | firstOutField => exact ⟨_, rfl, .of_rollers (latchFirst_rollers s)⟩
  | outFieldPassage i => exact ⟨_, rfl, .of_rollers (passOutField_rollers i s)⟩
  | inFieldPassage i => exact ⟨_, rfl, .of_rollers (passInField_rollers i s)⟩
  | reportFieldArrival => exact ⟨_, rfl, .of_rollers (passReport_rollers s)⟩
  | serviceAreaReturn => exact ⟨_, rfl, passService_fractions s⟩
  | outboundCheckWord => exact ⟨_, rfl, closeOut_fractions s⟩
  | serviceComplete n => exact ⟨_, rfl, completeService_fractions n s⟩
  | stageTimerExpiry i => exact ⟨_, rfl, stageExpires_fractions i s⟩
  | loadBlendEnd g => exact ⟨_, rfl, .of_rollers (by unfold loadBlendEnds; split <;> rfl)⟩
  | settleTimerExpiry g => exact ⟨_, rfl, (settleExpires_channels g s).fractions⟩
  | trackBlendInEnd g => exact ⟨_, rfl, .of_rollers (by unfold trackBlendIn; split <;> rfl)⟩
  | trackBlendOutEnd g => exact ⟨_, rfl, (trackBlendOut_channels g s).fractions⟩
  | traceRecordAppend => exact ⟨_, rfl, .of_rollers (by unfold traceAppends; split <;> rfl)⟩
  | lineSilenceExpiry => exact ⟨_, rfl, by unfold silenceEnds; split; exacts [elapse_fractions _ _ s, .refl s]⟩
  | certAssert => exact ⟨_, rfl, .of_rollers (by unfold withFreezeEntry; split <;> rfl)⟩
  | certRelease => exact ⟨_, rfl, .refl s⟩
  | saveComplete v => exact ⟨_, rfl, .of_rollers (saveDone_rollers v s)⟩
  | restartEffect => exact ⟨_, rfl, by unfold restartWaitEnds; split; exacts [elapse_fractions _ _ s, .refl s]⟩
  | _ => exact ⟨_, exec_request rfl s, serveRow_fractions _ s⟩

theorem step_fractions {s t : State} (h : step s = .next t) : FractionsKept s t := by
  unfold step at h
  split at h
  · rename_i c rest _
    obtain ⟨u, hu, hkept⟩ := exec_fractions c { s with pending := rest }
    obtain rfl : u = t := Host.Outcome.next.inj (hu.symm.trans h)
    exact hkept
  · obtain rfl := Host.Outcome.next.inj h
    exact elapse_fractions true 1 s

/-- Settles O33: one increment by its quotient and remainder, a run of increments by induction (`foldl_accumulate_travel`), and every step
command by command (`exec_fractions`). -/
theorem distanceKeptExactly : Obligations.DistanceKeptExactly := by
  refine ⟨fun cfg t n count dc ch hf => ?_, fun cfg t l ch hf => ?_, fun s t hok h i => step_fractions h i (hok i)⟩
  · intro total c f dd
    have hfraction : f = floorRem total 65536 := accumulate_fraction cfg t n count dc ch
    have hsplit : floorDiv total 65536 * 65536 + f = total := by
      rw [hfraction]
      exact floorDiv_mul_add total 65536
    have hdd : dd = floorDiv total 65536 := by
      simp only [dd]
      omega
    obtain ⟨hlow, hhigh⟩ := floorRem_range total 65536 (by decide)
    rw [← hfraction] at hlow hhigh
    rw [hdd]
    exact ⟨rfl, hlow, hhigh, hsplit, rfl, fun hdc hscale => total_natAbs_lt hdc hscale hf⟩
  · exact ⟨foldl_accumulate_fraction_lt cfg t l hf, Int.emod_eq_zero_of_dvd (foldl_accumulate_travel cfg t l ch)⟩

end Sys2Proof.Machine
end

section
/-! SUPPORT. Group simulation (Chapter 4): the integration and the speed in each group state (R67 to R72), and what an application does to a
group (04 R65, R66, R70; 05 R87; 07 R128). -/

namespace Sys2Proof.Machine

/-! ### The speed -/

/-- The speed an integration gives before the clamp (04 R67). -/
def integratedSpeed (fnet : Int) (k t mass : Nat) (g : Group) : Int :=
  g.speed + (fnet * (k * t : Nat) + g.residue) / ((10000 * mass : Nat) : Int)

theorem integrate_within {fnet : Int} {k t mass vmax : Nat} {g : Group} (h : (integratedSpeed fnet k t mass g).natAbs ≤ vmax) :
    integrate fnet k t mass vmax g =
      { g with speed := integratedSpeed fnet k t mass g
               residue := floorRem (fnet * (k * t : Nat) + g.residue) (10000 * mass) } :=
  if_neg (Nat.not_lt.mpr h)

theorem integrate_beyond {fnet : Int} {k t mass vmax : Nat} {g : Group} (h : vmax < (integratedSpeed fnet k t mass g).natAbs) :
    integrate fnet k t mass vmax g =
      { g with speed := if integratedSpeed fnet k t mass g < 0 then -(vmax : Int) else vmax
               residue := 0, flags := { g.flags with simSat := true } } :=
  if_pos h

/-- A residue in range for a mass: 0 ≤ r < 10⁴ × m (04 R68). -/
def ResidueIn (mass : Nat) (r : Int) : Prop := 0 ≤ r ∧ r < (10000 * mass : Nat)

theorem residueIn_zero {mass : Nat} (h : 0 < mass) : ResidueIn mass 0 := ⟨le_rfl, by omega⟩

/-- An integration leaves a residue in range, whatever it was before (04 R68). -/
theorem integrate_residueIn (fnet : Int) (k t vmax : Nat) {mass : Nat} (h : 0 < mass) (g : Group) :
    ResidueIn mass (integrate fnet k t mass vmax g).residue := by
  by_cases hv : (integratedSpeed fnet k t mass g).natAbs ≤ vmax
  · rw [integrate_within hv]
    exact floorRem_range _ _ (by omega)
  · rw [integrate_beyond (Nat.not_le.mp hv)]
    exact residueIn_zero h

theorem moveSpeed_moving {x : Group} (h : x.state = .follow ∨ x.state = .track) (t : Tables) (g : Fin 4) (k : Nat) (fnet : Int) :
    moveSpeed t g k fnet x = integrate fnet k t.cell.cycleUs (t.groups.get g).mass (vmaxOf t g) x := by
  rcases h with h | h <;> simp [moveSpeed, h]

theorem moveSpeed_stopping {x : Group} (h : x.state = .stopping) (t : Tables) (g : Fin 4) (k : Nat) (fnet : Int) :
    moveSpeed t g k fnet x =
      { x with speed := towardZero x.speed (rateStep (dStopMin t g) k t.cell.cycleUs), residue := 0 } := by
  simp [moveSpeed, h]

theorem moveSpeed_standing {x : Group} (h : x.state = .idle ∨ x.state = .engaging ∨ x.state = .hold ∨ x.state = .disengaging
    ∨ x.state = .faulted) (t : Tables) (g : Fin 4) (k : Nat) (fnet : Int) :
    moveSpeed t g k fnet x = { x with speed := 0, residue := 0 } := by
  rcases h with h | h | h | h | h <;> simp [moveSpeed, h]

/-- In every group state the step leaves a residue in range (04 R68, R71, R72). -/
theorem moveSpeed_residueIn (t : Tables) (g : Fin 4) (k : Nat) (fnet : Int) (x : Group) (h : 0 < (t.groups.get g).mass) :
    ResidueIn (t.groups.get g).mass (moveSpeed t g k fnet x).residue := by
  cases hst : x.state with
  | follow =>
    rw [moveSpeed_moving (.inl hst)]
    exact integrate_residueIn _ _ _ _ h x
  | track =>
    rw [moveSpeed_moving (.inr hst)]
    exact integrate_residueIn _ _ _ _ h x
  | stopping =>
    rw [moveSpeed_stopping hst]
    exact residueIn_zero h
  | idle | engaging | hold | disengaging | faulted =>
    rw [moveSpeed_standing (by simp [hst])]
    exact residueIn_zero h

/-! ### What an application does to a group -/

/-- The blend position a change of N_t leaves (05 R87). -/
def Group.posIn (nt : Nat) (x : Group) : Nat :=
  match x.dir with
  | .inward | .outward => min x.blendPos nt
  | .steady => nt
  | .none => x.blendPos

/-- The blend direction a change of N_t leaves (05 R87). -/
def Group.dirIn (nt : Nat) (x : Group) : BlendDir :=
  if x.dir = .inward ∧ min x.blendPos nt = nt then .steady else x.dir

/-- A change of N_t acts on the blend position and direction alone (05 R87). -/
theorem adjustBlend_eq (nt : Nat) (x : Group) : adjustBlend nt x = { x with blendPos := x.posIn nt, dir := x.dirIn nt } := by
  unfold adjustBlend Group.posIn Group.dirIn
  obtain ⟨_, _, _, _, _, _, _, _, dir, _, _⟩ := x
  cases dir <;> simp

/-- The load blend an application of a change leaves at a group (04 R65, R66). -/
def appliedBlend (active : Bool) (blend : Option Nat) (old new : Tables) (g : Fin 4) (x : Group) : Option LoadBlend :=
  if effective old g = effective new g then x.loadBlend
  else if active then blend.map fun n => { old := effective old g, pos := 0, len := n } else none

/-- An application at a group, field by field: the residue (04 R70), the load blend (04 R65, R66), the track blend (05 R87). -/
theorem applyToGroup_eq (active : Bool) (blend : Option Nat) (old new : Tables) (g : Fin 4) (x : Group) :
    let nt := (new.groups.get g).trackBlend
    applyToGroup active blend old new g x = { x with
      residue := if (old.groups.get g).mass = (new.groups.get g).mass then x.residue else 0
      loadBlend := appliedBlend active blend old new g x
      blendPos := if (old.groups.get g).trackBlend = nt then x.blendPos else x.posIn nt
      dir := if (old.groups.get g).trackBlend = nt then x.dir else x.dirIn nt } := by
  have hmass : (if (old.groups.get g).mass = (new.groups.get g).mass then x else { x with residue := 0 })
      = { x with residue := if (old.groups.get g).mass = (new.groups.get g).mass then x.residue else 0 } := by
    split <;> rfl
  unfold applyToGroup appliedBlend
  simp only [hmass, adjustBlend_eq]
  by_cases heff : effective old g = effective new g
  · simp only [heff, if_true]
    split <;> rfl
  · simp only [heff, if_false]
    cases active <;> cases blend <;> split <;> rfl

end Sys2Proof.Machine
end

section
/-! SUPPORT. The residue of every group (04 R68, R76): every event keeps it or sets it to 0, an integration leaves it in range, and an
application sets it to 0 where the mass changes. -/

namespace Sys2Proof.Machine

/-- In ACTIVE every mass is positive and every residue lies in range; outside it every residue is 0 (04 R68, R76). -/
def ResiduesOk (s : State) : Prop := ∀ g,
  (s.lpu.opState = .active → 0 < (s.tables.active.groups.get g).mass
      ∧ ResidueIn (s.tables.active.groups.get g).mass (s.groups.get g).residue)
    ∧ (s.lpu.opState ≠ .active → (s.groups.get g).residue = 0)

/-- The operating state and the masses are as they were, and every residue is as it was or 0. -/
structure ResiduesKept (s t : State) : Prop where
  opState : t.lpu.opState = s.lpu.opState
  masses : t.tables.active.groups = s.tables.active.groups
  residue : ∀ g, (t.groups.get g).residue = (s.groups.get g).residue ∨ (t.groups.get g).residue = 0

theorem ResiduesKept.of_groups {s t : State} (ho : t.lpu.opState = s.lpu.opState)
    (hm : t.tables.active.groups = s.tables.active.groups) (hg : t.groups = s.groups) : ResiduesKept s t :=
  ⟨ho, hm, fun g => .inl (by rw [hg])⟩

theorem ResiduesKept.refl (s : State) : ResiduesKept s s := .of_groups rfl rfl rfl

theorem ResiduesKept.trans {s t u : State} (h : ResiduesKept s t) (k : ResiduesKept t u) : ResiduesKept s u where
  opState := k.opState.trans h.opState
  masses := k.masses.trans h.masses
  residue g := by
    rcases k.residue g with hk | hk
    · rw [hk]
      exact h.residue g
    · exact .inr hk

theorem ResiduesKept.ok {s t : State} (k : ResiduesKept s t) (h : ResiduesOk s) : ResiduesOk t := by
  intro g
  obtain ⟨hactive, hother⟩ := h g
  rw [k.opState, k.masses]
  refine ⟨fun ho => ?_, fun ho => ?_⟩
  · obtain ⟨hmass, hin⟩ := hactive ho
    rcases k.residue g with hr | hr
    · rw [hr]
      exact ⟨hmass, hin⟩
    · rw [hr]
      exact ⟨hmass, residueIn_zero hmass⟩
  · rcases k.residue g with hr | hr
    · rw [hr]
      exact hother ho
    · exact hr

theorem onGroup_residues (s : State) (g : Fin 4) {f : Group → Group}
    (hf : (f (s.groups.get g)).residue = (s.groups.get g).residue ∨ (f (s.groups.get g)).residue = 0) :
    ResiduesKept s (s.onGroup g f) := by
  refine ⟨rfl, rfl, fun j => ?_⟩
  rw [State.onGroup_groups, Quad.get_set]
  split
  · rename_i hj
    rw [hj]
    exact hf
  · exact .inl rfl

theorem onMembers_residues (s : State) (g : Fin 4) (f : Roller → Roller) : ResiduesKept s (s.onMembers g f) :=
  .of_groups rfl rfl rfl

theorem onRoller_residues (s : State) (i : Fin 4) (f : Roller → Roller) : ResiduesKept s (s.onRoller i f) :=
  .of_groups rfl rfl rfl

theorem foldl_residues {α : Type} (f : State → α → State) (h : ∀ s a, ResiduesKept s (f s a)) (l : List α) (s : State) :
    ResiduesKept s (l.foldl f s) := by
  induction l generalizing s with
  | nil => exact .refl s
  | cons a l ih => exact (h s a).trans (ih _)

/-! ### Faults and group states -/

theorem discardTrack_residues (g : Fin 4) (s : State) : ResiduesKept s (discardTrack g s) :=
  (onMembers_residues s g _).trans (onGroup_residues _ g (.inl rfl))

theorem enterStopping_residues (c : StopCause) (g : Fin 4) (s : State) : ResiduesKept s (enterStopping c g s) :=
  (discardTrack_residues g s).trans (onGroup_residues _ g (.inr rfl))

theorem enterFaulted_residues (g : Fin 4) (s : State) : ResiduesKept s (enterFaulted g s) := onGroup_residues s g (.inr rfl)

theorem faultIfNoneReleased_residues (g : Fin 4) (s : State) : ResiduesKept s (faultIfNoneReleased g s) := by
  unfold faultIfNoneReleased
  split
  · exact .refl s
  · exact enterFaulted_residues g s

theorem windDownTest_residues (g : Fin 4) (s : State) : ResiduesKept s (windDownTest g s) := by
  unfold windDownTest
  split
  · exact enterFaulted_residues g s
  · exact .refl s

/-- A hard fault event keeps a residue or sets it to 0 (04 R73, 07 R126). -/
theorem groupFault_residues (g : Fin 4) (s : State) : ResiduesKept s (groupFault g s) := by
  have hforced : ResiduesKept s (enterFaulted g (forceMembers g s)) :=
    (onMembers_residues s g _).trans (enterFaulted_residues g _)
  have hstopped : ResiduesKept s (faultIfNoneReleased g (enterStopping .rollerFault g s)) :=
    (enterStopping_residues _ g s).trans (faultIfNoneReleased_residues g _)
  unfold groupFault
  split
  case h_1 | h_2 => exact .refl s
  case h_3 | h_4 => exact hforced
  case h_5 | h_6 | h_7 => exact hstopped
  case h_8 =>
    split
    · exact windDownTest_residues g s
    · exact (onGroup_residues s g (.inl rfl)).trans (faultIfNoneReleased_residues g _)

theorem hardFaultEvent_residues (i : Fin 4) (s : State) : ResiduesKept s (hardFaultEvent i s) := by
  unfold hardFaultEvent
  split
  · exact groupFault_residues _ s
  · exact .refl s

/-- The line fault event keeps a residue or sets it to 0 (07 R127). -/
theorem lineFault_residues (s : State) : ResiduesKept s (lineFault s) := by
  obtain ⟨-, -, -, hlpu, -, -, -, -, -, htables, -⟩ := (lineFault_onlyMotion s).fields
  refine ⟨by rw [hlpu], by rw [htables], fun g => ?_⟩
  rw [lineFault_groups]
  split
  · exact .inr rfl
  · exact .inl rfl

theorem settleExpiry_residues (g : Fin 4) (s : State) : ResiduesKept s (settleExpiry g s) :=
  ((onMembers_residues s g _).trans (enterFaulted_residues g _)).trans (onGroup_residues _ g (.inl rfl))

theorem settleAdvance_residues (g : Fin 4) (k n : Nat) (s : State) : ResiduesKept s (settleAdvance g k n s) := by
  unfold settleAdvance
  simp only
  split
  · exact settleExpiry_residues g s
  · exact onGroup_residues s g (.inl rfl)

theorem stopIfNoneReleased_residues (g : Fin 4) (s : State) : ResiduesKept s (stopIfNoneReleased g s) := by
  unfold stopIfNoneReleased
  split
  · exact .refl s
  · exact onGroup_residues s g (.inl rfl)

theorem completeStop_residues (g : Fin 4) (s : State) : ResiduesKept s (completeStop g s) := by
  unfold completeStop
  split
  · exact ((onGroup_residues s g (.inl rfl)).trans (onMembers_residues _ g _)).trans (stopIfNoneReleased_residues g _)
  · exact onGroup_residues s g (.inl rfl)

theorem settleStep_residues (g : Fin 4) (k : Nat) (s : State) : ResiduesKept s (settleStep g k s) := by
  unfold settleStep
  split
  · exact settleAdvance_residues g k _ s
  · split
    · exact onGroup_residues s g (.inl rfl)
    · exact .refl s

theorem settleWindDown_residues (g : Fin 4) (k : Nat) (s : State) : ResiduesKept s (settleWindDown g k s) := by
  unfold settleWindDown
  split
  · split
    · exact settleAdvance_residues g k _ s
    · exact onGroup_residues s g (.inl rfl)
  · exact .refl s

theorem stopTests_residues (g : Fin 4) (k : Nat) (s : State) : ResiduesKept s (stopTests g k s) := by
  unfold stopTests
  split
  · split
    · exact settleWindDown_residues g k s
    · split
      · exact completeStop_residues g s
      · exact settleStep_residues g k s
  · exact .refl s

theorem engagingTests_residues (g : Fin 4) (s : State) : ResiduesKept s (engagingTests g s) := by
  unfold engagingTests
  split
  · split
    · exact onMembers_residues s g _
    · split
      · exact onGroup_residues s g (.inr rfl)
      · exact .refl s
  · exact .refl s

theorem disengagingTest_residues (g : Fin 4) (s : State) : ResiduesKept s (disengagingTest g s) := by
  unfold disengagingTest
  split
  · exact onGroup_residues s g (.inr rfl)
  · exact .refl s

theorem groupTests_residues (g : Fin 4) (k : Nat) (s : State) : ResiduesKept s (groupTests g k s) := by
  unfold groupTests
  split
  · exact (((stopTests_residues g k s).trans (windDownTest_residues g _)).trans (engagingTests_residues g _)).trans
      (disengagingTest_residues g _)
  · exact .refl s

/-! ### Composition and channels -/

theorem endTrack_residues (g : Fin 4) (s : State) : ResiduesKept s (endTrack g s) :=
  (discardTrack_residues g s).trans (onGroup_residues _ g (.inl rfl))

theorem moveBlend_residue (nt k : Nat) (x : Group) : (moveBlend nt k x).1.residue = x.residue := by
  unfold moveBlend
  split <;> rfl

theorem blendStep_residues (g : Fin 4) (k : Nat) (s : State) : ResiduesKept s (blendStep g k s) := by
  have hmoved := onGroup_residues s g (f := fun _ => (moveBlend (s.tables.active.groups.get g).trackBlend k (s.groups.get g)).1)
    (.inl (moveBlend_residue _ k _))
  unfold blendStep moveTrackBlend
  split
  · simp only
    split
    · exact hmoved.trans (endTrack_residues g _)
    · exact hmoved
  · exact .refl s

theorem advanceRefs_residues (g : Fin 4) (k : Nat) (s : State) : ResiduesKept s (advanceRefs g k s) := by
  unfold advanceRefs
  split
  · exact onMembers_residues s g _
  · exact .refl s

theorem checkTrack_residues (g : Fin 4) (k : Nat) (s : State) : ResiduesKept s (checkTrack g k s) := by
  unfold checkTrack loseTrack
  simp only
  split
  · exact ((advanceRefs_residues g k s).trans (enterStopping_residues _ g _)).trans (onGroup_residues _ g (.inl rfl))
  · exact advanceRefs_residues g k s

theorem markClamp_residues (g : Fin 4) (comps : Quad Composed) (s : State) : ResiduesKept s (markClamp g comps s) := by
  unfold markClamp
  split
  · exact onGroup_residues s g (.inl rfl)
  · exact .refl s

theorem keepAll_residues (g : Fin 4) (comps : Quad Composed) (s : State) : ResiduesKept s (keepAll g comps s) :=
  .of_groups rfl rfl rfl

/-- A composition keeps a residue, or sets it to 0 where the track is lost (05 R82). -/
theorem composeGroup_residues (g : Fin 4) (k : Nat) (sp : State × Quad Int) : ResiduesKept sp.1 (composeGroup g k sp).1 :=
  (((checkTrack_residues g k sp.1).trans (markClamp_residues g _ _)).trans (keepAll_residues g _ _)).trans (blendStep_residues g k _)

theorem channelTakes_residues (k : Nat) (resync : Bool) (i : Fin 4) (s : State) : ResiduesKept s (channelTakes k resync i s) := by
  unfold channelTakes
  split
  · exact .refl s
  · simp only
    split
    · exact (onRoller_residues s i _).trans (hardFaultEvent_residues i _)
    · exact onRoller_residues s i _

theorem channelsTake_residues (order : List (Fin 4)) (k : Nat) (resync : Bool) (s : State) :
    ResiduesKept s (channelsTake order k resync s) :=
  (foldl_residues _ (fun s i => channelTakes_residues k resync i s) _ s).trans (.of_groups rfl rfl rfl)

/-! ### Masses -/

/-- Every group of a copy has a mass. -/
def MassesOk (t : Tables) : Prop := ∀ g, 0 < (t.groups.get g).mass

/-- An entry in its ranges has a mass (08 R135). -/
theorem groupsCheck_mass {e : GroupsEntry} (h : groupsCheck e = true) : 0 < e.mass := by
  obtain ⟨hmass, -⟩ := (entryCheck_iff (.groups e)).mp h
  omega

theorem putEntry_masses {t : Tables} (h : MassesOk t) (p : Place) {e : Entry} (he : entryCheck e = true) : MassesOk (t.putEntry p e) := by
  intro g
  unfold Tables.putEntry
  split
  case h_4 j x =>
    rw [Quad.get_set]
    split
    · exact groupsCheck_mass he
    · exact h g
  all_goals exact h g

/-- An entry that passes the live check leaves every group a mass (08 R137). -/
theorem liveCheck_masses {t : Tables} (h : MassesOk t) {p : Place} {e : Entry} (hc : liveCheck t p e = true) :
    MassesOk (t.putEntry p e) := by
  unfold liveCheck at hc
  obtain ⟨he, -⟩ := Bool.and_eq_true_iff.mp hc
  exact putEntry_masses h p he

/-- A change that passes the commit check leaves every group a mass (08 R137). -/
theorem commitCheck_masses {staging active : Tables} (h : MassesOk active) {named : Table → Bool}
    (hc : commitCheck named staging active = true) : MassesOk (Tables.merge named staging active) := by
  intro g
  unfold Tables.merge
  simp only
  split
  · rename_i hnamed
    unfold commitCheck at hc
    obtain ⟨htables, -⟩ := Bool.and_eq_true_iff.mp hc
    have hgroups : (!named .groups || tableCheck staging .groups) = true := List.all_eq_true.mp htables .groups (by decide)
    rw [hnamed, Bool.not_true, Bool.false_or] at hgroups
    exact groupsCheck_mass ((Quad.all_toList _ _).mp hgroups g)
  · exact h g

theorem startCheck_masses {t : Tables} (h : startCheck t = true) : MassesOk t := by
  intro g
  obtain ⟨hentries, -, -⟩ := (startCheck_iff t).mp h
  exact groupsCheck_mass ((entryCheck_iff (.groups _)).mpr (hentries (.groups g)))

/-! ### Applications -/

theorem emptiedToIdle_residue (old new : Tables) (g : Fin 4) (x : Group) :
    (emptiedToIdle old new g x).residue = x.residue ∨ (emptiedToIdle old new g x).residue = 0 := by
  unfold emptiedToIdle
  split
  · exact .inr rfl
  · exact .inl rfl

/-- An application keeps a residue where the mass stays, and sets it to 0 otherwise (04 R70, 07 R128). -/
theorem applyTables_residue (new : Tables) (blend : Option Nat) (s : State) (g : Fin 4) :
    ((applyTables new blend s).groups.get g).residue = 0
      ∨ ((s.tables.active.groups.get g).mass = (new.groups.get g).mass
          ∧ ((applyTables new blend s).groups.get g).residue = (s.groups.get g).residue) := by
  have happlied : (applyTables new blend s).groups.get g = emptiedToIdle s.tables.active new g
      (applyToGroup (decide (s.lpu.opState = .active)) blend s.tables.active new g (s.groups.get g)) := Quad.get_mapIdx _ _ g
  rw [happlied]
  rcases emptiedToIdle_residue s.tables.active new g
    (applyToGroup (decide (s.lpu.opState = .active)) blend s.tables.active new g (s.groups.get g)) with h | h
  · rw [h, applyToGroup_eq]
    simp only
    split
    · exact .inr ⟨‹_›, rfl⟩
    · exact .inl rfl
  · exact .inl h

/-- An application that gives every group a mass keeps the residues in range (04 R70). -/
theorem applyTables_residuesOk {s : State} (h : ResiduesOk s) {new : Tables} (hm : s.lpu.opState = .active → MassesOk new)
    (blend : Option Nat) : ResiduesOk (applyTables new blend s) := by
  intro g
  obtain ⟨hactive, hother⟩ := h g
  refine ⟨fun ho => ⟨hm ho g, ?_⟩, fun ho => ?_⟩
  · show ResidueIn (new.groups.get g).mass _
    rcases applyTables_residue new blend s g with hr | ⟨hmass, hr⟩
    · rw [hr]
      exact residueIn_zero (hm ho g)
    · rw [hr, ← hmass]
      exact (hactive ho).2
  · rcases applyTables_residue new blend s g with hr | ⟨-, hr⟩
    · exact hr
    · exact hr.trans (hother ho)

/-! ### The accepted cycle -/

/-- The part is in ACTIVE with its residues in range. -/
def RunOk (s : State) : Prop := s.lpu.opState = .active ∧ ResiduesOk s

theorem RunOk.masses {s : State} (h : RunOk s) : MassesOk s.tables.active := fun g => ((h.2 g).1 h.1).1

theorem ResiduesKept.run {s t : State} (k : ResiduesKept s t) (h : RunOk s) : RunOk t := ⟨k.opState.trans h.1, k.ok h.2⟩

theorem foldl_run {α : Type} (f : State → α → State) (hf : ∀ s a, RunOk s → RunOk (f s a)) (l : List α) {s : State} (h : RunOk s) :
    RunOk (l.foldl f s) := by
  induction l generalizing s with
  | nil => exact h
  | cons a l ih => exact ih (hf s a h)

theorem onTables_residues (s : State) {f : TableManager → TableManager} (hf : (f s.tables).active = s.tables.active) :
    ResiduesKept s (s.onTables f) :=
  .of_groups rfl (by rw [State.onTables_tables, hf]) rfl

theorem takeLiveDue_run (p : Place) {s : State} (h : RunOk s) : RunOk (takeLiveDue p s) := by
  have htaken : RunOk (s.onTables fun x => { x with due := x.due.put p false }) := (onTables_residues s rfl).run h
  rcases takeLiveDue_cases p s with ⟨-, e⟩ | ⟨-, hok, e⟩ | ⟨-, -, e⟩
  · rwa [e]
  · rw [e]
    obtain ⟨hlive, -⟩ := Bool.and_eq_true_iff.mp hok
    exact ⟨htaken.1, applyTables_residuesOk htaken.2 (fun _ => liveCheck_masses h.masses hlive) none⟩
  · rw [e]
    exact (onTables_residues _ rfl).run htaken

theorem takeRecord_run (r : ChangeRecord) {s : State} (h : RunOk s) : RunOk (takeRecord r s) := by
  have htaken : RunOk (s.onTables fun x => { x with ctl := unpin r.mask x.ctl }) := (onTables_residues s rfl).run h
  rcases takeRecord_cases r s with ⟨hok, e⟩ | ⟨-, e⟩
  · rw [e]
    obtain ⟨hcommit, -⟩ := Bool.and_eq_true_iff.mp hok
    exact ⟨htaken.1, applyTables_residuesOk htaken.2 (fun _ => commitCheck_masses h.masses hcommit) r.blend⟩
  · rw [e]
    exact (onTables_residues _ rfl).run htaken

theorem takeRecords_run (e : Nat) (l : List ChangeRecord) {s : State} (h : RunOk s) : RunOk (takeRecords e l s) := by
  induction l generalizing s with
  | nil => exact (onTables_residues s rfl).run h
  | cons r rest ih =>
    unfold takeRecords
    split
    · exact ih (takeRecord_run r h)
    · exact (onTables_residues s rfl).run h

theorem tableWork_run (e : Nat) {s : State} (h : RunOk s) : RunOk (tableWork e s) :=
  takeRecords_run e _ (foldl_run _ (fun _ p => takeLiveDue_run p) placesInOrder h)

/-- A group's step leaves its residue in range, and the others as they are (04 R67 to R72). -/
theorem stepGroup_run (g : Fin 4) (k : Nat) {s : State} (h : RunOk s) : RunOk (stepGroup g k s) := by
  have hmoved (f : Group → Group) (hf : ResidueIn (s.tables.active.groups.get g).mass (f (s.groups.get g)).residue) :
      RunOk (s.onGroup g f) := by
    refine ⟨h.1, fun j => ⟨fun ho => ⟨h.masses j, ?_⟩, fun ho => absurd h.1 ho⟩⟩
    rw [State.onGroup_groups, Quad.get_set]
    split
    · rename_i hj
      rw [hj]
      exact hf
    · exact ((h.2 j).1 ho).2
  unfold stepGroup handOn
  refine ((groupTests_residues g k _).trans (onGroup_residues _ g (.inl rfl))).run (hmoved _ ?_)
  exact moveSpeed_residueIn _ g k _ _ (h.masses g)

theorem groupTakes_run (k : Nat) (g : Fin 4) {sp : State × Quad Int} (h : RunOk sp.1) : RunOk (groupTakes k g sp).1 :=
  (composeGroup_residues g k _).run (stepGroup_run g k h)

theorem groupsTake_run (k : Nat) {s : State} (h : RunOk s) : RunOk (groupsTake k s).1 :=
  groupTakes_run k 3 (groupTakes_run k 2 (groupTakes_run k 1 (groupTakes_run k 0 h)))

theorem publish_residues (outs : Quad Int) (s : State) : ResiduesKept s (publish outs s) := .of_groups rfl rfl rfl

theorem traceWork_residues (e : Nat) (s : State) : ResiduesKept s (traceWork e s) := by
  rw [traceWork_only]
  exact .of_groups rfl rfl rfl

theorem formImage_residues (e : Nat) (s : State) : ResiduesKept s (formImage e s) := .of_groups rfl rfl rfl

/-- An accepted cycle keeps every residue in range (04 R68). -/
theorem acceptedCycle_run (order : List (Fin 4)) (e k : Nat) (resync : Bool) {s : State} (h : RunOk s) :
    RunOk (acceptedCycle order e k resync s) := by
  have hcomposed : RunOk (composedCycle order e k resync s).1 :=
    groupsTake_run k ((channelsTake_residues order k resync _).run (tableWork_run e h))
  rw [acceptedCycle_eq]
  exact (((publish_residues _ _).trans (traceWork_residues e _)).trans (formImage_residues e _)).run hcomposed

/-! ### Requests and the reply queue -/

theorem groupAction_residues {a : Nat} {act : Fin 4 → State → Acted} (h : groupAction a = some act) (g : Fin 4) (s : State) :
    ResiduesKept s (act g s).2 := by
  have hclear : ResiduesKept s (clearGroup g s) := (onMembers_residues s g _).trans (onGroup_residues _ g (.inr rfl))
  have htrack : ResiduesKept s (beginTrack g s) := (onMembers_residues s g _).trans (onGroup_residues _ g (.inl rfl))
  have hengage : ResiduesKept s (beginEngage g s) := (onGroup_residues s g (.inl rfl)).trans (onMembers_residues _ g _)
  have hdisengage : ResiduesKept s (beginDisengage g s) := (onGroup_residues s g (.inl rfl)).trans (onMembers_residues _ g _)
  unfold groupAction at h
  split at h <;> first | (obtain rfl := Option.some.inj h) | cases h
  · unfold actEngage
    repeat' split
    all_goals first | exact .refl s | exact hengage
  · unfold actRun
    split
    all_goals first | exact .refl s | exact onGroup_residues s g (f := fun x => { x with state := .follow, speed := 0, residue := 0 }) (.inr rfl)
  · unfold actTrack
    repeat' split
    all_goals first | exact .refl s | exact htrack | exact onGroup_residues s g (f := fun x => { x with dir := .inward }) (.inl rfl)
  · unfold actUntrack
    repeat' split
    all_goals first | exact .refl s | exact onGroup_residues s g (f := fun x => { x with dir := .outward }) (.inl rfl)
  · unfold actStop
    split
    all_goals first | exact .refl s | exact enterStopping_residues _ g s
  · unfold actDisengage
    split
    all_goals first | exact .refl s | exact hdisengage
  · unfold actClear
    repeat' split
    all_goals first | exact .refl s | exact hclear

theorem ownGroup_residues (g a : Byte) (s : State) : ResiduesKept s (ownGroup g a s).2 := by
  unfold ownGroup
  split
  · exact .refl s
  · split
    · exact .refl s
    · rename_i act hact
      repeat' split
      all_goals first | exact .refl s | exact groupAction_residues hact _ s

/-- Where every residue is 0 and the part is not in ACTIVE, or every group has a mass, the residues are in range. -/
theorem ResiduesOk.of_zero {s : State} (hr : ∀ g, (s.groups.get g).residue = 0) (hm : s.lpu.opState = .active → MassesOk s.tables.active) :
    ResiduesOk s := fun g =>
  ⟨fun ho => ⟨hm ho g, by rw [hr g]; exact residueIn_zero (hm ho g)⟩, fun _ => hr g⟩

theorem ownStart_residuesOk {s : State} (h : ResiduesOk s) : ResiduesOk (ownStart s).2 := by
  unfold ownStart
  split
  · exact h
  · split
    · rename_i hcheck
      refine .of_zero (fun g => ?_) fun _ => startCheck_masses hcheck
      rw [show (startRun s).groups.get g = Group.initial (s.groups.get g).flags from Quad.get_mapIdx _ _ g]
      rfl
    · exact h
  · exact h

/-- A run that ends leaves every residue 0 (04 R76). -/
theorem haltRun_residuesOk (s : State) : ResiduesOk (haltRun s) := by
  obtain ⟨hnot, hrest⟩ := (haltAllLiveDue_taken (runEnds_ended s)).1.ended (runEnds_ended s)
  refine .of_zero (fun g => ?_) fun ho => absurd ho hnot
  obtain ⟨-, hresidue, -⟩ := hrest g
  exact hresidue

theorem ownHalt_residuesOk {s : State} (h : ResiduesOk s) : ResiduesOk (ownHalt s).2 := by
  unfold ownHalt
  repeat' split
  all_goals first | exact h | exact haltRun_residuesOk s

/-- A live write applies at once outside ACTIVE alone, and waits as a mark in it (08 R140). -/
theorem writePassed_residuesOk (p : Place) (e : Entry) {s : State} (h : ResiduesOk s) : ResiduesOk (writePassed p e s).2 := by
  have hstaged : ResiduesOk (s.onTables fun x => { x with staging := x.staging.putEntry p e }) := (onTables_residues s rfl).ok h
  unfold writePassed
  simp only
  split
  · split
    · exact (onTables_residues _ rfl).ok hstaged
    · rename_i ho
      exact applyTables_residuesOk hstaged (fun ha => absurd ha ho) none
  · exact hstaged

theorem ownWriteEntry_residuesOk (t i : Byte) (bs : List Byte) {s : State} (h : ResiduesOk s) :
    ResiduesOk (ownWriteEntry t i bs s).2 := by
  unfold ownWriteEntry writeAt
  repeat' split
  all_goals first | exact h | exact writePassed_residuesOk _ _ h

theorem noteStation_residues (mask : Byte) (s : State) : ResiduesKept s (noteStation mask s) := by
  unfold noteStation
  split <;> exact .of_groups rfl rfl rfl

theorem commitActive_residues (mask : Byte) (effective blend : Option Nat) (s : State) :
    ResiduesKept s (commitActive mask effective blend s).2 := by
  unfold commitActive acceptCommit
  repeat' split
  all_goals exact .of_groups rfl rfl rfl

theorem commitBypass_residuesOk (mask : Byte) (effective blend : Option Nat) {s : State} (h : ResiduesOk s)
    (ho : s.lpu.opState ≠ .active) : ResiduesOk (commitBypass mask effective blend s).2 := by
  unfold commitBypass
  repeat' split
  all_goals first
    | exact h
    | exact (noteStation_residues mask _).ok (applyTables_residuesOk h (fun ha => absurd ha ho) blend)

theorem ownCommit_residuesOk (mask presence : Byte) (effective : BitVec 64) (blend : BitVec 16) {s : State} (h : ResiduesOk s) :
    ResiduesOk (ownCommit mask presence effective blend s).2 := by
  unfold ownCommit
  simp only
  split
  · exact h
  · split
    · exact h
    · split
      · exact (commitActive_residues mask _ _ s).ok h
      · rename_i ho
        exact commitBypass_residuesOk mask _ _ h ho

theorem clearSticky_residues (mask : BitVec 64) (s : State) : ResiduesKept s (clearSticky mask s) := by
  refine ⟨rfl, rfl, fun g => .inl ?_⟩
  have hcleared : (clearSticky mask s).groups.get g = { s.groups.get g with flags := (s.groups.get g).flags.clear mask g } :=
    Quad.get_mapIdx _ _ g
  rw [hcleared]

/-- Every request's owner keeps the residues in range. -/
theorem own_residuesOk (r : Request) {s : State} (h : ResiduesOk s) : ResiduesOk (own r s).2 := by
  cases r with
  | identify | readStatus => exact h
  | clearFlags m => exact (clearSticky_residues m s).ok h
  | start => exact ownStart_residuesOk h
  | halt => exact ownHalt_residuesOk h
  | group g a => exact (ownGroup_residues g a s).ok h
  | readEntry t i c =>
    show ResiduesOk (ownReadEntry t i c s).2
    unfold ownReadEntry
    simp only
    repeat' split
    all_goals exact h
  | writeEntry t i e => exact ownWriteEntry_residuesOk t i e h
  | setLive t v =>
    show ResiduesOk (ownSetLive t v s).2
    unfold ownSetLive
    simp only
    repeat' split
    all_goals exact h
  | commit m p e b => exact ownCommit_residuesOk m p e b h
  | cancel m =>
    show ResiduesOk (ownCancel m s).2
    unfold ownCancel
    simp only
    split <;> exact h
  | lock m md =>
    show ResiduesOk (ownLock m md s).2
    unfold ownLock
    repeat' split
    all_goals exact h
  | freeze =>
    show ResiduesOk (ownFreeze s).2
    unfold ownFreeze withFreezeEntry
    simp only [freezeReply]
    split <;> exact h
  | thaw =>
    show ResiduesOk (ownThaw s).2
    unfold ownThaw
    split <;> exact h
  | traceSet g d e =>
    rw [own, ownTraceSet_only]
    exact h
  | readTrace =>
    rw [own, ownReadTrace_only]
    exact h
  | storeSave =>
    rw [own, ownStoreSave_only]
    exact h
  | restart =>
    rw [own, ownRestart_only]
    exact h

theorem linkRestart_residuesOk (e : ReplyEntry) (rep : Reply) {s : State} (h : ResiduesOk s) : ResiduesOk (linkRestart e rep s) := by
  rw [linkRestart_only]
  exact h

theorem serveNow_residuesOk (r : Request) {s : State} (h : ResiduesOk s) : ResiduesOk (serveNow r s).2 := own_residuesOk r h

theorem serveRow_residuesOk (r : Request) {s : State} (h : ResiduesOk s) : ResiduesOk (serveRow r s) := by
  have hserved := serveNow_residuesOk r h
  unfold serveRow
  split
  · simp only
    split
    · exact linkRestart_residuesOk _ _ hserved
    · exact hserved
  · exact h

theorem answerOf_residuesOk (e : ReplyEntry) {s : State} (h : ResiduesOk s) : ResiduesOk (answerOf e s).2 := by
  unfold answerOf
  split
  · exact h
  · split
    · exact linkRestart_residuesOk _ _ (serveNow_residuesOk _ h)
    · exact h

/-- A reset event leaves STARTING and every residue 0 (04 R76). -/
theorem ResiduesOk.of_reset {t u : State} {keep : Bool} (ho : t.lpu.opState = .starting) (hg : t.groups = (resetValues keep u).groups) :
    ResiduesOk t := by
  refine .of_zero (fun g => ?_) fun ha => by rw [ho] at ha; cases ha
  rw [hg, show (resetValues keep u).groups.get g = Group.initial _ from Quad.get_mapIdx _ _ g]
  rfl

theorem restartEffect_residuesOk (s : State) : ResiduesOk (restartEffect s) :=
  .of_reset (keep := true) (u := serveOutstanding s) rfl rfl

theorem afterQueue_residuesOk {s : State} (h : ResiduesOk s) : ResiduesOk (afterQueue s) := by
  unfold afterQueue
  split
  · exact restartEffect_residuesOk s
  · exact h

theorem resultPresent_residues (e : ReplyEntry) (rep : Reply) (s : State) : ResiduesKept s (resultPresent e rep s) := by
  unfold resultPresent
  simp only
  repeat' split
  all_goals exact .of_groups rfl rfl rfl

theorem completeService_residuesOk (n : Nat) {s : State} (h : ResiduesOk s) : ResiduesOk (completeService n s) := by
  unfold completeService
  split
  · exact afterQueue_residuesOk ((resultPresent_residues _ _ _).ok (answerOf_residuesOk _ h))
  · exact h

theorem dropEntry_residues (e : ReplyEntry) (s : State) : ResiduesKept s (dropEntry e s) := by
  unfold dropEntry
  split <;> exact .of_groups rfl rfl rfl

theorem dropSilently_residues (e : ReplyEntry) (s : State) : ResiduesKept s (dropSilently e s) := by
  unfold dropSilently
  split <;> exact .of_groups rfl rfl rfl

theorem matchReturn_residues (cycle : BitVec 16) (s : State) : ResiduesKept s (matchReturn cycle s).2 := by
  unfold matchReturn
  split
  · exact foldl_residues _ (fun s e => dropEntry_residues e s) _ s
  · exact .refl s

theorem takeRequest_residues (kind : Byte) (len : Nat) (payload : List Byte) (cycle : BitVec 16) (s : State) :
    ResiduesKept s (takeRequest kind len payload cycle s) := by
  have hroom : ResiduesKept s (makeRoom s) := by
    unfold makeRoom
    repeat' split
    all_goals first | exact .refl s | exact dropEntry_residues _ s
  exact hroom.trans (.of_groups rfl rfl rfl)

/-! ### The line -/

theorem onLpu_residues (s : State) {f : Lpu → Lpu} (hf : (f s.lpu).opState = s.lpu.opState) : ResiduesKept s (s.onLpu f) :=
  .of_groups hf rfl rfl

theorem silenceExpiry_residues (s : State) : ResiduesKept s (silenceExpiry s) := by
  unfold silenceExpiry
  exact (onLpu_residues s rfl).trans (lineFault_residues _)

theorem elapse_residuesOk (inclusive : Bool) (dt : Nat) {s : State} (h : ResiduesOk s) : ResiduesOk (elapse inclusive dt s) := by
  have hsilent (b : Bool) : ResiduesOk (if b then silenceExpiry s else s) := by
    split
    · exact (silenceExpiry_residues s).ok h
    · exact h
  unfold elapse
  simp only
  split
  · exact restartEffect_residuesOk s
  · split
    · exact restartEffect_residuesOk _
    · exact hsilent _

theorem headerArrives_residuesOk (port : Port) (f : LinkFrame) {s : State} (h : ResiduesOk s) : ResiduesOk (headerArrives port f s) := by
  have hmatch : ResiduesOk (if (newPass s f).followed then matchReturn (frameCycle f.bytes) s else (none, s)).2 := by
    split
    · exact (matchReturn_residues _ s).ok h
    · exact h
  unfold headerArrives
  split
  · cases port with
    | m => exact h
    | d => exact afterQueue_residuesOk hmatch
  · exact h

theorem latchFirst_residues (s : State) : ResiduesKept s (latchFirst s) := by
  unfold latchFirst
  repeat' split
  all_goals exact .of_groups rfl rfl rfl

theorem passOutField_residues (i : Fin 4) (s : State) : ResiduesKept s (passOutField i s) := by
  unfold passOutField
  repeat' split
  all_goals exact .of_groups rfl rfl rfl

theorem passInField_residues (i : Fin 4) (s : State) : ResiduesKept s (passInField i s) := by
  unfold passInField
  repeat' split
  all_goals exact .of_groups rfl rfl rfl

theorem passReport_residues (s : State) : ResiduesKept s (passReport s) := by
  unfold passReport
  repeat' split
  all_goals exact .of_groups rfl rfl rfl

theorem answerFrame_residues (p : Pass) (e : ReplyEntry) (s : State) : ResiduesKept s (answerFrame p e s) := by
  unfold answerFrame
  split
  · exact .of_groups rfl rfl rfl
  · exact (dropEntry_residues e s).trans (.of_groups rfl rfl rfl)

theorem passService_residuesOk {s : State} (h : ResiduesOk s) : ResiduesOk (passService s) := by
  unfold passService
  repeat' split
  all_goals first | exact h | exact afterQueue_residuesOk ((answerFrame_residues _ _ s).ok h)

theorem takeFromFrame_residues (p : Pass) (s : State) : ResiduesKept s (takeFromFrame p s) := by
  unfold takeFromFrame
  split
  · exact takeRequest_residues _ _ _ _ s
  · exact .refl s

theorem closeOut_residuesOk {s : State} (h : ResiduesOk s) : ResiduesOk (closeOut s) := by
  unfold closeOut
  split
  · split
    · simp only
      split
      · exact h
      · split
        · exact afterQueue_residuesOk ((takeFromFrame_residues _ _).ok h)
        · exact h
    · exact h
  · exact h

theorem cutCheck_residues (p : Pass) (s : State) : ResiduesKept s (cutCheck p s) := by
  unfold cutCheck
  split
  · exact .refl s
  · exact onLpu_residues s rfl

theorem cutReply_residues (p : Pass) (s : State) : ResiduesKept s (cutReply p s) := by
  unfold cutReply
  split
  · split
    · exact dropSilently_residues _ s
    · exact .refl s
  · exact .refl s

theorem cutShort_residuesOk (port : Port) {s : State} (h : ResiduesOk s) : ResiduesOk (cutShort port s) := by
  unfold cutShort
  cases port with
  | m =>
    simp only
    repeat' split
    all_goals first | exact h | exact (cutCheck_residues _ _).ok h
  | d =>
    simp only
    repeat' split
    all_goals first | exact h | exact afterQueue_residuesOk (((cutCheck_residues _ _).trans (cutReply_residues _ _)).ok h)

theorem acceptResync_run (order : List (Fin 4)) (e gap : Nat) (cycle : BitVec 16) {s : State} (h : RunOk s) :
    RunOk (acceptResync order e gap cycle s) := by
  unfold acceptResync
  refine acceptedCycle_run order _ 1 true (ResiduesKept.run ?_ h)
  exact ((onLpu_residues s rfl).trans (lineFault_residues _)).trans (onLpu_residues _ rfl)

/-- However a good return frame is classified in ACTIVE, the residues stay in range (01 R14). -/
theorem classify_run (order : List (Fin 4)) (cycle : BitVec 16) {s : State} (h : RunOk s) : RunOk (classify order cycle s) := by
  unfold classify
  split
  · exact acceptedCycle_run order _ _ _ ((onLpu_residues s rfl).run h)
  · simp only
    split
    · exact acceptResync_run order _ _ cycle h
    · split
      · exact (onLpu_residues s rfl).run h
      · split
        · exact acceptedCycle_run order _ _ _ (((onLpu_residues s rfl).trans (onLpu_residues _ rfl)).run h)
        · exact acceptResync_run order _ _ cycle h

theorem goodReturn_residuesOk (order : List (Fin 4)) (p : Pass) {s : State} (h : ResiduesOk s) : ResiduesOk (goodReturn order p s) := by
  unfold goodReturn
  split
  · exact (onLpu_residues s rfl).ok h
  · split
    · rename_i haccept
      have hactive : s.lpu.opState = .active := by
        unfold mayAccept at haccept
        simp only [Bool.and_eq_true, decide_eq_true_eq] at haccept
        obtain ⟨-, ho⟩ := haccept
        exact ho
      exact (classify_run order _ ⟨hactive, h⟩).2
    · exact h

theorem closeReturn_residuesOk (dt : Nat) (order : List (Fin 4)) {s : State} (h : ResiduesOk s) : ResiduesOk (closeReturn dt order s) := by
  have helapsed := elapse_residuesOk false dt h
  unfold closeReturn
  simp only
  generalize elapse false dt s = u at helapsed ⊢
  split
  · rename_i p _
    split
    · split
      · exact helapsed
      · split
        · exact goodReturn_residuesOk order p (s := { u with retPass := none, sentM := some (sentFrame p) }) helapsed
        · exact helapsed
    · exact h
  · exact h

/-! ### Every command -/

theorem assertReset_residuesOk (a b : Nat) {s : State} (h : ResiduesOk s) : ResiduesOk (assertReset a b s) := by
  unfold assertReset
  split
  · exact h
  · split
    · exact .of_reset (keep := false) (u := s) rfl rfl
    · exact h

/-- The store load completes in STARTING, where every residue is 0 (12 R183). -/
theorem loadComplete_residuesOk {s : State} (h : ResiduesOk s) : ResiduesOk (loadComplete s) := by
  unfold loadComplete
  split
  · rename_i hstarting
    simp only [Bool.and_eq_true, decide_eq_true_eq] at hstarting
    obtain ⟨-, ho⟩ := hstarting
    have hzero (g : Fin 4) : (s.groups.get g).residue = 0 := (h g).2 (by rw [ho]; decide)
    unfold completeLoad withFreezeEntry loadTables
    simp only
    repeat' split
    all_goals exact .of_zero hzero nofun
  · exact h

theorem saveDone_residues (v : Bool) (s : State) : ResiduesKept s (saveDone v s) := by
  unfold saveDone
  repeat' split
  all_goals exact .of_groups rfl rfl rfl

theorem stageExpires_residues (i : Fin 4) (s : State) : ResiduesKept s (stageExpires i s) := by
  unfold stageExpires
  split
  · exact (onRoller_residues s i _).trans (hardFaultEvent_residues i _)
  · exact .refl s

theorem loadBlendEnds_residues (g : Fin 4) (s : State) : ResiduesKept s (loadBlendEnds g s) := by
  unfold loadBlendEnds
  split
  · exact onGroup_residues s g (.inl rfl)
  · exact .refl s

theorem settleExpires_residues (g : Fin 4) (s : State) : ResiduesKept s (settleExpires g s) := by
  unfold settleExpires
  split
  · exact settleExpiry_residues g s
  · exact .refl s

theorem trackBlendIn_residues (g : Fin 4) (s : State) : ResiduesKept s (trackBlendIn g s) := by
  unfold trackBlendIn
  split
  · exact onGroup_residues s g (.inl rfl)
  · exact .refl s

theorem trackBlendOut_residues (g : Fin 4) (s : State) : ResiduesKept s (trackBlendOut g s) := by
  unfold trackBlendOut
  split
  · exact endTrack_residues g s
  · exact .refl s

theorem traceAppends_residues (s : State) : ResiduesKept s (traceAppends s) := by
  unfold traceAppends
  split <;> exact .of_groups rfl rfl rfl

theorem silenceEnds_residuesOk {s : State} (h : ResiduesOk s) : ResiduesOk (silenceEnds s) := by
  unfold silenceEnds
  split
  · exact elapse_residuesOk _ _ h
  · exact h

theorem restartWaitEnds_residuesOk {s : State} (h : ResiduesOk s) : ResiduesOk (restartWaitEnds s) := by
  unfold restartWaitEnds
  split
  · exact elapse_residuesOk _ _ h
  · exact h

theorem certAssert_residues (s : State) : ResiduesKept s (withFreezeEntry s { s with cert := true }) := by
  unfold withFreezeEntry
  split <;> exact .of_groups rfl rfl rfl

/-- Every command answers a next state, with the residues in range where they were. -/
theorem exec_residuesOk (c : Instr) {s : State} (h : ResiduesOk s) : ∃ t, exec c s = .next t ∧ ResiduesOk t := by
  cases c with
  | returnCheckWord dt order => exact ⟨_, rfl, closeReturn_residuesOk dt order h⟩
  | powerUp | powerDown => exact ⟨_, rfl, .of_reset (keep := false) (u := s) rfl rfl⟩
  | resetAssert a b => exact ⟨_, rfl, assertReset_residuesOk a b h⟩
  | resetRelease | certRelease => exact ⟨_, rfl, h⟩
  | storeLoadComplete => exact ⟨_, rfl, loadComplete_residuesOk h⟩
  | passHeader port f => exact ⟨_, rfl, headerArrives_residuesOk port f h⟩
  | frameCutShort port => exact ⟨_, rfl, cutShort_residuesOk port h⟩
  | firstOutField => exact ⟨_, rfl, (latchFirst_residues s).ok h⟩
  | outFieldPassage i => exact ⟨_, rfl, (passOutField_residues i s).ok h⟩
  | inFieldPassage i => exact ⟨_, rfl, (passInField_residues i s).ok h⟩
  | reportFieldArrival => exact ⟨_, rfl, (passReport_residues s).ok h⟩
  | serviceAreaReturn => exact ⟨_, rfl, passService_residuesOk h⟩
  | outboundCheckWord => exact ⟨_, rfl, closeOut_residuesOk h⟩
  | serviceComplete n => exact ⟨_, rfl, completeService_residuesOk n h⟩
  | stageTimerExpiry i => exact ⟨_, rfl, (stageExpires_residues i s).ok h⟩
  | loadBlendEnd g => exact ⟨_, rfl, (loadBlendEnds_residues g s).ok h⟩
  | settleTimerExpiry g => exact ⟨_, rfl, (settleExpires_residues g s).ok h⟩
  | trackBlendInEnd g => exact ⟨_, rfl, (trackBlendIn_residues g s).ok h⟩
  | trackBlendOutEnd g => exact ⟨_, rfl, (trackBlendOut_residues g s).ok h⟩
  | traceRecordAppend => exact ⟨_, rfl, (traceAppends_residues s).ok h⟩
  | lineSilenceExpiry => exact ⟨_, rfl, silenceEnds_residuesOk h⟩
  | certAssert => exact ⟨_, rfl, (certAssert_residues s).ok h⟩
  | saveComplete v => exact ⟨_, rfl, (saveDone_residues v s).ok h⟩
  | restartEffect => exact ⟨_, rfl, restartWaitEnds_residuesOk h⟩
  | _ => exact ⟨_, exec_request rfl s, serveRow_residuesOk _ h⟩

theorem step_residuesOk {s t : State} (hs : ResiduesOk s) (h : step s = .next t) : ResiduesOk t := by
  unfold step at h
  split at h
  · rename_i c rest _
    obtain ⟨u, hu, hok⟩ := exec_residuesOk c (s := { s with pending := rest }) hs
    obtain rfl : u = t := Host.Outcome.next.inj (hu.symm.trans h)
    exact hok
  · obtain rfl := Host.Outcome.next.inj h
    exact elapse_residuesOk true 1 hs

theorem reset_residuesOk : ResiduesOk State.reset :=
  .of_zero (fun g => by rw [reset_group]; rfl) nofun

/-- Settles O38, command by command (`exec_residuesOk`): only a step of a group sets a residue other than 0, and leaves it in range
(`stepGroup_run`); an application keeps it where the mass stays (`applyTables_residuesOk`). -/
theorem residuesKeptByEveryStep : Obligations.ResiduesKeptByEveryStep :=
  ⟨reset_residuesOk, fun _ _ => step_residuesOk⟩

end Sys2Proof.Machine
end

section
/-! SUPPORT. Group simulation (Chapter 4): the limits of a group (R57), the road load (R59 to R62) and its blends (R63, R64), and the speed of a
step (R67 to R72). -/

namespace Sys2Proof.Machine

/-! ### The limits of a group -/

theorem mem_members (t : Tables) (g i : Fin 4) : i ∈ members t g ↔ (t.rollers.get i).group = some g.val := by
  simp [members, mem_four, isMember]

/-- The smallest over some rollers is a bound that one of them meets. -/
theorem minOver_least (f : Fin 4 → Nat) {l : List (Fin 4)} {i : Fin 4} (h : i ∈ l) :
    (∀ j ∈ l, minOver f l ≤ f j) ∧ ∃ j ∈ l, minOver f l = f j := by
  cases l with
  | nil => cases h
  | cons a l =>
    have hmin : ((a :: l).map f).min? = some (minOver f (a :: l)) := by
      rw [List.map_cons, List.min?_cons', List.foldl_map]
      rfl
    obtain ⟨hmem, hle⟩ := List.min?_eq_some_iff.mp hmin
    obtain ⟨j, hj, heq⟩ := List.mem_map.mp hmem
    exact ⟨fun j hj => hle _ (List.mem_map_of_mem hj), j, hj, heq.symm⟩

/-- With a member, a smallest over the members is a bound of each that one of them meets (04 R57). -/
theorem minOver_members (f : Fin 4 → Nat) {t : Tables} {g : Fin 4} (h : ∃ i, (t.rollers.get i).group = some g.val) :
    (∀ i, (t.rollers.get i).group = some g.val → minOver f (members t g) ≤ f i)
      ∧ ∃ i, (t.rollers.get i).group = some g.val ∧ minOver f (members t g) = f i := by
  obtain ⟨i, hi⟩ := h
  obtain ⟨hle, j, hj, heq⟩ := minOver_least f ((mem_members t g i).mpr hi)
  exact ⟨fun i hi => hle i ((mem_members t g i).mpr hi), j, (mem_members t g j).mp hj, heq⟩

/-! ### The speed -/

/-- The speed moves toward 0 by the step, and reaches 0 where it is no farther away (04 R71). -/
theorem towardZero_spec (v : Int) (step : Nat) :
    (v.natAbs ≤ step → towardZero v step = 0)
      ∧ (step < v.natAbs → (towardZero v step).natAbs + step = v.natAbs ∧ (0 < towardZero v step ↔ 0 < v)) := by
  unfold towardZero
  refine ⟨fun h => if_pos h, fun h => ?_⟩
  rw [if_neg (Nat.not_le.mpr h)]
  split
  · omega
  · omega

/-- Without the clamp an integration loses nothing of the impulse (04 R67, R68). -/
theorem integrate_conserves {fnet : Int} {k t mass vmax : Nat} {g : Group} (h : (integratedSpeed fnet k t mass g).natAbs ≤ vmax) :
    fnet * (k * t : Nat) + g.residue
      = (10000 * mass : Nat) * ((integrate fnet k t mass vmax g).speed - g.speed) + (integrate fnet k t mass vmax g).residue := by
  rw [integrate_within h]
  have hsplit := floorDiv_mul_add (fnet * (k * t : Nat) + g.residue) (10000 * mass)
  have hmoved : integratedSpeed fnet k t mass g - g.speed = floorDiv (fnet * (k * t : Nat) + g.residue) (10000 * mass) :=
    add_sub_cancel_left _ _
  simp only [hmoved]
  rw [mul_comm ((10000 * mass : Nat) : Int)]
  exact hsplit.symm

/-- Beyond the limit the speed is the limit in its own direction, the residue 0 and SIM_SAT set (04 R69). -/
theorem integrate_clamps {fnet : Int} {k t mass vmax : Nat} {g : Group} (h : vmax < (integratedSpeed fnet k t mass g).natAbs) :
    let x := integrate fnet k t mass vmax g
    x.speed.natAbs = vmax ∧ (0 < integratedSpeed fnet k t mass g → x.speed = vmax)
      ∧ (integratedSpeed fnet k t mass g < 0 → x.speed = -vmax) ∧ x.residue = 0 ∧ x.flags.simSat = true := by
  rw [integrate_beyond h]
  generalize integratedSpeed fnet k t mass g = v
  refine ⟨?_, fun hv => if_neg (by omega), fun hv => if_pos hv, rfl, rfl⟩
  simp only
  split <;> omega

/-- Settles O37: the integration by its quotient and remainder and by its clamp, the speed state by state, and the limits of a group as
smallest over its members. -/
theorem integrationConservesImpulse : Obligations.IntegrationConservesImpulse := by
  refine ⟨fun fnet k t mass vmax g hmass => ⟨fun hv => ?within, integrate_clamps⟩, fun t g k fnet x =>
    ⟨fun hst => ?stopping, fun hst => moveSpeed_moving hst t g k fnet, fun hst => moveSpeed_standing hst t g k fnet, fun hmember => ?limits⟩⟩
  case within =>
    obtain ⟨hlow, hhigh⟩ := integrate_residueIn fnet k t vmax hmass g
    refine ⟨integrate_conserves hv, hlow, hhigh, ?_⟩
    rw [integrate_within hv]
    rfl
  case stopping => exact ⟨_, moveSpeed_stopping hst t g k fnet, towardZero_spec x.speed _⟩
  case limits =>
    obtain ⟨hvmax, hvmaxMet⟩ := minOver_members (fun i => (t.rollers.get i).vmax) hmember
    obtain ⟨hstop, hstopMet⟩ := minOver_members (fun i => (t.rollers.get i).dStop) hmember
    exact ⟨fun i hi => ⟨hvmax i hi, hstop i hi⟩, hvmaxMet, hstopMet⟩

/-! ### The road load -/

/-- A quotient rounded half up does not exceed a bound of the quotient. -/
theorem roundHalfUp_le {n d m : Nat} (hd : 0 < d) (h : n ≤ m * d) : roundHalfUp n d ≤ m := by
  unfold roundHalfUp
  rw [← Nat.lt_succ_iff, Nat.div_lt_iff_lt_mul (by omega), Nat.mul_left_comm, Nat.succ_mul m]
  omega

/-- A common factor does not change a quotient rounded half up. -/
theorem roundHalfUp_mul_right (n d : Nat) {m : Nat} (hm : 0 < m) : roundHalfUp (n * m) (d * m) = roundHalfUp n d := by
  unfold roundHalfUp
  rw [← mul_assoc, ← mul_assoc, ← add_mul, Nat.mul_div_mul_right _ _ hm]

theorem roadMagnitude_from_creep {c : LoadsEntry} {s : Nat} (h : c.vCreep ≤ s) :
    roadMagnitude c s = roundHalfUp (c.a * 10 ^ 9 + c.b * s * 10 ^ 4 + c.c * s ^ 2) (10 ^ 9) := if_pos h

theorem roadMagnitude_below_creep {c : LoadsEntry} {s : Nat} (h : s < c.vCreep) :
    roadMagnitude c s = roundHalfUp (c.a * 10 ^ 9 * s + (c.b * s * 10 ^ 4 + c.c * s ^ 2) * c.vCreep) (10 ^ 9 * c.vCreep) :=
  if_neg (Nat.not_le.mpr h)

theorem roadMagnitude_zero {c : LoadsEntry} (h : 0 < c.vCreep) : roadMagnitude c 0 = 0 := by
  rw [roadMagnitude_below_creep h]
  exact Nat.le_zero.mp (roundHalfUp_le (by omega) (by simp))

/-- The two forms of the magnitude meet at v_creep (04 R61). -/
theorem roadMagnitude_meets {c : LoadsEntry} (h : 0 < c.vCreep) :
    roundHalfUp (c.a * 10 ^ 9 * c.vCreep + (c.b * c.vCreep * 10 ^ 4 + c.c * c.vCreep ^ 2) * c.vCreep) (10 ^ 9 * c.vCreep)
      = roadMagnitude c c.vCreep := by
  rw [roadMagnitude_from_creep le_rfl, ← add_mul, roundHalfUp_mul_right _ _ h, add_assoc]

/-- The speed terms of an entry in its ranges, at a speed up to a bound (08 R135). -/
theorem speedTerms_le {c : LoadsEntry} (hb : c.b ≤ 100000) (hc : c.c ≤ 50000) {s top : Nat} (hs : s ≤ top) :
    c.b * s * 10 ^ 4 + c.c * s ^ 2 ≤ 100000 * top * 10 ^ 4 + 50000 * top ^ 2 :=
  Nat.add_le_add (Nat.mul_le_mul_right _ (Nat.mul_le_mul hb hs)) (Nat.mul_le_mul hc (Nat.pow_le_pow_left hs 2))

/-- Up to 70,000 mm/s the magnitude of an entry in its ranges is at most 365,000 (04 R60). -/
theorem roadMagnitude_le {c : LoadsEntry} (hcheck : loadsCheck c = true) {s : Nat} (hs : s ≤ 70000) : roadMagnitude c s ≤ 365000 := by
  obtain ⟨ha, hb, hc, hcreep, -⟩ := (entryCheck_iff (.loads c)).mp hcheck
  have hsum : c.a * 10 ^ 9 + (c.b * s * 10 ^ 4 + c.c * s ^ 2) ≤ 365000 * 10 ^ 9 :=
    (Nat.add_le_add (Nat.mul_le_mul_right _ ha) (speedTerms_le hb hc hs)).trans (by norm_num)
  by_cases h : c.vCreep ≤ s
  · rw [roadMagnitude_from_creep h, add_assoc]
    exact roundHalfUp_le (by decide) hsum
  · have hbelow := Nat.not_le.mp h
    rw [roadMagnitude_below_creep hbelow]
    refine roundHalfUp_le (by omega) ?_
    calc c.a * 10 ^ 9 * s + (c.b * s * 10 ^ 4 + c.c * s ^ 2) * c.vCreep
        ≤ c.a * 10 ^ 9 * c.vCreep + (c.b * s * 10 ^ 4 + c.c * s ^ 2) * c.vCreep :=
          Nat.add_le_add_right (Nat.mul_le_mul_left _ hbelow.le) _
      _ = (c.a * 10 ^ 9 + (c.b * s * 10 ^ 4 + c.c * s ^ 2)) * c.vCreep := (add_mul ..).symm
      _ ≤ (365000 * 10 ^ 9) * c.vCreep := Nat.mul_le_mul_right _ hsum
      _ = 365000 * (10 ^ 9 * c.vCreep) := mul_assoc ..

/-- Below v_creep the numerator of an entry in its ranges is below 1.1 × 10¹⁷ (04 R61). -/
theorem creepNumerator_lt {c : LoadsEntry} (hcheck : loadsCheck c = true) {s : Nat} (hs : s < c.vCreep) :
    c.a * 10 ^ 9 * s + (c.b * s * 10 ^ 4 + c.c * s ^ 2) * c.vCreep < 110000000000000000 := by
  obtain ⟨ha, hb, hc, -, hcreep⟩ := (entryCheck_iff (.loads c)).mp hcheck
  have hs' : s ≤ 2000 := by omega
  calc c.a * 10 ^ 9 * s + (c.b * s * 10 ^ 4 + c.c * s ^ 2) * c.vCreep
      ≤ 50000 * 10 ^ 9 * 2000 + (100000 * 2000 * 10 ^ 4 + 50000 * 2000 ^ 2) * 2000 :=
        Nat.add_le_add (Nat.mul_le_mul (Nat.mul_le_mul_right _ ha) hs') (Nat.mul_le_mul (speedTerms_le hb hc hs') hcreep)
    _ < 110000000000000000 := by decide

/-- The road load reverses with the direction of travel (04 R62). -/
theorem signedLoad_neg (c : LoadsEntry) (v : Int) : signedLoad c (-v) = -signedLoad c v := by
  unfold signedLoad withSignOf
  rw [Int.natAbs_neg]
  rcases lt_trichotomy v 0 with h | h | h
  · rw [if_pos (by omega), if_neg (by omega), if_pos h, neg_neg]
  · simp [h]
  · rw [if_neg (by omega), if_pos (by omega), if_pos h]

/-- The group force is the sum of the forces of the members that are RELEASED (04 R59). -/
theorem groupForce_eq (s : State) (g : Fin 4) :
    groupForce s g = Finset.univ.sum (fun i : Fin 4 =>
      if (s.tables.active.rollers.get i).group = some g.val ∧ (s.rollers.get i).seq.stage = .released then
        (s.rollers.get i).chan.force else 0) := by
  rw [Fin.sum_univ_four]
  simp [groupForce, four, isMember, add_assoc]

theorem effective_eq {t : Tables} {g : Fin 4} {n : Fin 8} (h : (t.groups.get g).loadSet = n.val) : effective t g = t.loads.get n := by
  have hn : (t.groups.get g).loadSet < 8 := h ▸ n.isLt
  rw [effective, dif_pos hn]
  exact congrArg _ (Fin.ext h)

/-- What a step hands on of the force and the road load it has formed (04 R58, R74). -/
theorem stepGroup_handed (g : Fin 4) (k : Nat) (s : State) :
    ((stepGroup g k s).groups.get g).handed.load
        = roadLoad (effective s.tables.active g) (s.groups.get g).loadBlend (s.groups.get g).speed
      ∧ ((stepGroup g k s).groups.get g).handed.force = groupForce s g := by
  unfold stepGroup handOn
  simp only [State.onGroup_groups, Quad.get_set_same, and_self]

/-- Settles O35: the two forms of the magnitude, their bounds and their meeting, the sign, and what a step forms. -/
theorem roadLoadOpposesMotion : Obligations.RoadLoadOpposesMotion := by
  refine ⟨fun c => ⟨fun s => roadMagnitude_from_creep, fun s => roadMagnitude_below_creep,
    fun h => ⟨roadMagnitude_zero h, roadMagnitude_meets h⟩, fun h => ⟨fun s => roadMagnitude_le h, fun s => creepNumerator_lt h⟩,
    signedLoad_neg c, rfl, fun v hv => if_pos hv⟩, fun s g k => ?_⟩
  obtain ⟨hload, hforce⟩ := stepGroup_handed g k s
  exact ⟨hload, hforce, groupForce_eq s g, fun n => effective_eq, fun c v => rfl⟩

/-! ### Load blends -/

/-- Round half away misses its quotient by half at most, and where by half, away from zero (00, Arithmetic and rounding). -/
theorem roundHalfAway_nearest (n : Int) {d : Nat} (hd : 0 < d) :
    (2 * (roundHalfAway n d * d - n)).natAbs ≤ d
      ∧ ((2 * (roundHalfAway n d * d - n)).natAbs = d → n.natAbs ≤ (roundHalfAway n d).natAbs * d) := by
  have hlow := Nat.div_mul_le_self (2 * n.natAbs + d) (2 * d)
  have hhigh := Nat.lt_div_mul_add (a := 2 * n.natAbs + d) (b := 2 * d) (by omega)
  unfold roundHalfAway
  generalize (2 * n.natAbs + d) / (2 * d) = q at hlow hhigh
  rw [Nat.mul_left_comm] at hlow hhigh
  have habs : (if n < 0 then -(q : Int) else q).natAbs = q := by split <;> simp
  have hprod : (if n < 0 then -(q : Int) else q) * d = if n < 0 then -((q * d : Nat) : Int) else ((q * d : Nat) : Int) := by
    split <;> simp
  simp only [habs, hprod]
  generalize q * d = m at hlow hhigh
  split <;> omega

/-- Round half away stays between two integers that its quotient lies between. -/
theorem roundHalfAway_between {n a b : Int} {d : Nat} (hd : 0 < d) (ha : a * d ≤ n) (hb : n ≤ b * d) :
    a ≤ roundHalfAway n d ∧ roundHalfAway n d ≤ b := by
  obtain ⟨hmiss, -⟩ := roundHalfAway_nearest n hd
  have hd' : (0 : Int) < d := by omega
  constructor
  · have h : a * d < (roundHalfAway n d + 1) * d := by
      rw [add_mul, one_mul]
      omega
    exact Int.lt_add_one_iff.mp (lt_of_mul_lt_mul_right h hd'.le)
  · have h : roundHalfAway n d * d < (b + 1) * d := by
      rw [add_mul, one_mul]
      omega
    exact Int.lt_add_one_iff.mp (lt_of_mul_lt_mul_right h hd'.le)

/-- A weighted sum of two numbers lies between them. -/
theorem weighted_between (o n : Int) {len pos : Nat} (h : pos ≤ len) :
    min o n * len ≤ o * ((len : Int) - pos) + n * pos ∧ o * ((len : Int) - pos) + n * pos ≤ max o n * len := by
  have hpos : (0 : Int) ≤ pos := Int.natCast_nonneg pos
  have hrest : (0 : Int) ≤ (len : Int) - pos := by omega
  have hsplit (x : Int) : x * len = x * ((len : Int) - pos) + x * pos := by ring
  rw [hsplit (min o n), hsplit (max o n)]
  exact ⟨add_le_add (mul_le_mul_of_nonneg_right (min_le_left o n) hrest) (mul_le_mul_of_nonneg_right (min_le_right o n) hpos),
    add_le_add (mul_le_mul_of_nonneg_right (le_max_left o n) hrest) (mul_le_mul_of_nonneg_right (le_max_right o n) hpos)⟩

theorem roadLoad_blended (eff : LoadsEntry) {b : LoadBlend} (h : b.pos ≤ b.len) (v : Int) :
    roadLoad eff (some b) v
      = roundHalfAway (signedLoad b.old v * ((b.len : Int) - b.pos) + signedLoad eff v * b.pos) b.len := by
  rw [roadLoad, Nat.cast_sub h]

/-- Settles O36: the weighted value lies between its two loads (`weighted_between`), and rounding keeps it there
(`roundHalfAway_between`). -/
theorem loadBlendRunsBetweenCurves : Obligations.LoadBlendRunsBetweenCurves := by
  refine ⟨fun eff b v hlen hpos => ?_, fun n d hd => roundHalfAway_nearest n hd, fun k b => rfl, fun s g hst => ?_⟩
  · intro f o n
    have hf : f = roundHalfAway (o * ((b.len : Int) - b.pos) + n * b.pos) b.len := roadLoad_blended eff hpos v
    obtain ⟨hlow, hhigh⟩ := weighted_between o n hpos
    obtain ⟨hmin, hmax⟩ := roundHalfAway_between hlen hlow hhigh
    rw [← hf] at hmin hmax
    refine ⟨hf, hmin, hmax, fun hzero => ?_⟩
    have hstart : o * ((b.len : Int) - b.pos) + n * b.pos = o * b.len := by simp [hzero]
    obtain ⟨hle, hge⟩ := roundHalfAway_between hlen hstart.ge hstart.le
    rw [hf]
    exact le_antisymm hge hle
  · show Host.Outcome.next (loadBlendEnds g s) = _
    rw [loadBlendEnds, if_pos (show inRun s = true from decide_eq_true hst)]
    rfl

end Sys2Proof.Machine
end

section
/-! SUPPORT. The Table Manager's work at an accepted cycle (08 R147): the live-due marks in their order (R141), the due records (R148), and what
an application leaves of groups and rollers (R149). -/

namespace Sys2Proof.Machine

/-! ### Live-due marks -/

/-- A mark taken is clear, and the others stay as they were (08 R141). -/
theorem takeLiveDue_due (p : Place) (s : State) (q : Place) :
    (takeLiveDue p s).tables.due.at q = if q = p then false else s.tables.due.at q := by
  rcases takeLiveDue_cases p s with ⟨hclear, h⟩ | ⟨-, -, h⟩ | ⟨-, -, h⟩
  · rw [h]
    split
    · rename_i hq
      rw [hq, hclear]
    · rfl
  · rw [h]
    exact LiveDue.at_put s.tables.due p q false
  · rw [h]
    exact LiveDue.at_put s.tables.due p q false

theorem takeLiveDue_unmarked {p : Place} {s : State} (h : s.tables.due.at p = false) : takeLiveDue p s = s :=
  if_neg (by rw [h]; exact Bool.false_ne_true)

/-- Places without a mark change nothing. -/
theorem foldl_takeLiveDue_unmarked {l : List Place} {s : State} (h : ∀ p ∈ l, s.tables.due.at p = false) :
    l.foldl (fun s p => takeLiveDue p s) s = s := by
  induction l with
  | nil => rfl
  | cons q l ih =>
    rw [List.foldl_cons, takeLiveDue_unmarked (h q List.mem_cons_self)]
    exact ih fun p hp => h p (List.mem_cons_of_mem q hp)

theorem takeAllLiveDue_unmarked {s : State} (h : s.tables.due = LiveDue.none) : takeAllLiveDue s = s :=
  foldl_takeLiveDue_unmarked fun p _ => by rw [h, LiveDue.at_none]

/-- The first mark is taken, and the work goes on from the state that leaves (08 R141). -/
theorem takeAllLiveDue_first {s : State} {p : Place} {before after : List Place} (hsplit : placesInOrder = before ++ p :: after)
    (hbefore : ∀ q ∈ before, s.tables.due.at q = false) : takeAllLiveDue s = takeAllLiveDue (takeLiveDue p s) := by
  have hskip (l : List Place) (t : State) (h : ∀ q ∈ l, t.tables.due.at q = false) (m : List Place) :
      (l ++ m).foldl (fun s p => takeLiveDue p s) t = m.foldl (fun s p => takeLiveDue p s) t := by
    rw [List.foldl_append, foldl_takeLiveDue_unmarked h]
  have htaken : ∀ q ∈ before, (takeLiveDue p s).tables.due.at q = false := fun q hq => by
    rw [takeLiveDue_due, hbefore q hq, ite_self]
  have hcleared : takeLiveDue p (takeLiveDue p s) = takeLiveDue p s :=
    takeLiveDue_unmarked (by rw [takeLiveDue_due, if_pos rfl])
  unfold takeAllLiveDue
  rw [hsplit, hskip before s hbefore, hskip before _ htaken, List.foldl_cons, List.foldl_cons, hcleared]

theorem tableWork_first {s : State} {p : Place} {before after : List Place} (hsplit : placesInOrder = before ++ p :: after)
    (hbefore : ∀ q ∈ before, s.tables.due.at q = false) (e : Nat) : tableWork e s = tableWork e (takeLiveDue p s) := by
  unfold tableWork
  rw [takeAllLiveDue_first hsplit hbefore]

/-! ### Due records -/

/-- The state with another list of records. -/
def State.withChanges (s : State) (l : List ChangeRecord) : State := s.onTables fun x => { x with changes := l }

theorem State.withChanges_self {s : State} {l : List ChangeRecord} (h : s.tables.changes = l) : s.withChanges l = s := by
  subst h
  rfl

/-- A record passes both tests of R148: the commit check, and the group change test where it names ROLLERS. -/
def recordPasses (r : ChangeRecord) (s : State) : Bool :=
  commitCheck (maskNames r.mask) s.tables.staging s.tables.active
    && (!maskNames r.mask .rollers || groupChangeOk s (Tables.merge (maskNames r.mask) s.tables.staging s.tables.active))

theorem recordPasses_iff (r : ChangeRecord) (s : State) :
    recordPasses r s = true ↔ commitCheck (maskNames r.mask) s.tables.staging s.tables.active = true
      ∧ (maskNames r.mask .rollers = true
          → groupChangeOk s (Tables.merge (maskNames r.mask) s.tables.staging s.tables.active) = true) := by
  unfold recordPasses
  rw [Bool.and_eq_true, Bool.or_eq_true, Bool.not_eq_true', ← Bool.not_eq_true, imp_iff_not_or]

theorem takeRecord_applied {r : ChangeRecord} {s : State} (h : recordPasses r s = true) :
    takeRecord r s = applyTables (Tables.merge (maskNames r.mask) s.tables.staging s.tables.active) r.blend
      (s.onTables fun x => { x with ctl := unpin r.mask x.ctl }) :=
  if_pos h

theorem takeRecord_dropped {r : ChangeRecord} {s : State} (h : ¬ recordPasses r s = true) :
    takeRecord r s = s.onTables fun x =>
      { x with ctl := unpin r.mask x.ctl, flags := { x.flags with commitDropped := true } } :=
  if_neg h

theorem recordPasses_withChanges (r : ChangeRecord) (s : State) (l : List ChangeRecord) :
    recordPasses r (s.withChanges l) = recordPasses r s := rfl

theorem takeRecord_withChanges (r : ChangeRecord) (s : State) (l : List ChangeRecord) :
    takeRecord r (s.withChanges l) = (takeRecord r s).withChanges l := by
  by_cases h : recordPasses r s = true
  · rw [takeRecord_applied h, takeRecord_applied ((recordPasses_withChanges r s l).trans h)]
    rfl
  · rw [takeRecord_dropped h, takeRecord_dropped (by rwa [recordPasses_withChanges])]
    rfl

theorem takeRecords_due {e : Nat} {r : ChangeRecord} (h : isDue e r = true) (rest : List ChangeRecord) (s : State) :
    takeRecords e (r :: rest) s = takeRecords e rest (takeRecord r s) := by
  rw [takeRecords, if_pos h]

theorem takeRecords_later {e : Nat} {r : ChangeRecord} (h : ¬ isDue e r = true) (rest : List ChangeRecord) (s : State) :
    takeRecords e (r :: rest) s = s.withChanges (r :: rest) := by
  rw [takeRecords, if_neg h]
  rfl

/-- The records that are taken are those the work is given, whatever the list then holds. -/
theorem takeRecords_withChanges (e : Nat) (rest : List ChangeRecord) (s : State) (l : List ChangeRecord) :
    takeRecords e rest (s.withChanges l) = takeRecords e rest s := by
  induction rest generalizing s with
  | nil => rfl
  | cons r rest ih =>
    by_cases h : isDue e r = true
    · rw [takeRecords_due h, takeRecords_due h, takeRecord_withChanges, ih]
    · rw [takeRecords_later h, takeRecords_later h]
      rfl

theorem isDue_iff (e : Nat) (r : ChangeRecord) : isDue e r = true ↔ ∀ d, r.due = some d → d ≤ e := by
  unfold isDue
  cases r.due <;> simp

theorem tableWork_unmarked {s : State} {l : List ChangeRecord} (h : s.tables.due = LiveDue.none) (hl : s.tables.changes = l) (e : Nat) :
    tableWork e s = takeRecords e l s := by
  subst hl
  unfold tableWork
  rw [takeAllLiveDue_unmarked h]

/-- With no mark and no due record at the head there is nothing to do (08 R147). -/
theorem tableWork_nothing {s : State} {e : Nat} (hmarks : s.tables.due = LiveDue.none)
    (hhead : ∀ r, s.tables.changes.head? = some r → ¬ isDue e r = true) : tableWork e s = s := by
  cases hlist : s.tables.changes with
  | nil =>
    rw [tableWork_unmarked hmarks hlist]
    exact State.withChanges_self hlist
  | cons r rest =>
    rw [tableWork_unmarked hmarks hlist, takeRecords_later (hhead r (by rw [hlist]; rfl))]
    exact State.withChanges_self hlist

theorem takeRecord_due (r : ChangeRecord) (s : State) : (takeRecord r s).tables.due = s.tables.due := by
  by_cases h : recordPasses r s = true
  · rw [takeRecord_applied h]
    rfl
  · rw [takeRecord_dropped h]
    rfl

/-- With no mark, the due record at the head is taken, and the work goes on from the state that leaves (08 R147). -/
theorem tableWork_record {s : State} {e : Nat} {r : ChangeRecord} {rest : List ChangeRecord} (hmarks : s.tables.due = LiveDue.none)
    (hlist : s.tables.changes = r :: rest) (hdue : isDue e r = true) :
    tableWork e s = tableWork e ((takeRecord r s).withChanges rest) := by
  rw [tableWork_unmarked hmarks hlist, takeRecords_due hdue,
    tableWork_unmarked (s := (takeRecord r s).withChanges rest) (l := rest) ((takeRecord_due r s).trans hmarks) rfl,
    takeRecords_withChanges]

/-! ### The group change test -/

theorem standing_iff (s : State) (g : Fin 4) :
    standing s g = true ↔ (s.groups.get g).state = .idle ∨ (s.groups.get g).state = .faulted := by
  unfold standing
  cases (s.groups.get g).state <;> simp

theorem groupOfRoller_iff (t : Tables) (i g : Fin 4) : groupOfRoller t i = some g ↔ (t.rollers.get i).group = some g.val := by
  rw [← isMember_iff, isMember, beq_iff_eq]

/-- The group change test: every group that a roller leaves or joins is IDLE or FAULTED (08 R139, R141, R148). -/
theorem groupChangeOk_iff (s : State) (new : Tables) :
    groupChangeOk s new = true ↔ ∀ (i g : Fin 4), (s.tables.active.rollers.get i).group ≠ (new.rollers.get i).group →
      ((s.tables.active.rollers.get i).group = some g.val ∨ (new.rollers.get i).group = some g.val) →
      (s.groups.get g).state = .idle ∨ (s.groups.get g).state = .faulted := by
  unfold groupChangeOk
  rw [four_all]
  simp only [Bool.or_eq_true, beq_iff_eq, Bool.and_eq_true, Option.all_eq_true, groupOfRoller_iff, standing_iff]
  constructor
  · intro h i g hne hnamed
    rcases h i with heq | ⟨hleft, hjoined⟩
    · exact absurd heq hne
    · exact hnamed.elim (hleft g) (hjoined g)
  · intro h i
    by_cases hne : (s.tables.active.rollers.get i).group = (new.rollers.get i).group
    · exact .inl hne
    · exact .inr ⟨fun g hg => h i g hne (.inl hg), fun g hg => h i g hne (.inr hg)⟩

/-! ### What an application leaves -/

/-- A FAULTED group that had members is left with none (07 R128). -/
def Group.Emptied (old new : Tables) (g : Fin 4) (x : Group) : Prop :=
  x.state = .faulted ∧ (∃ i, isMember old g i = true) ∧ ∀ i, isMember new g i = false

theorem emptied_iff (old new : Tables) (g : Fin 4) (x : Group) :
    x.Emptied old new g ↔ x.state = .faulted ∧ hasMembers old g = true ∧ hasMembers new g = false := by
  unfold Group.Emptied hasMembers
  rw [four_any, ← Bool.not_eq_true (four.any _), four_any, not_exists]
  simp only [Bool.not_eq_true]

/-- An application at a group that is not emptied by it (08 R149). -/
theorem applyTables_group {new : Tables} {s : State} {g : Fin 4} (h : ¬ (s.groups.get g).Emptied s.tables.active new g)
    (blend : Option Nat) :
    (applyTables new blend s).groups.get g
      = applyToGroup (decide (s.lpu.opState = .active)) blend s.tables.active new g (s.groups.get g) := by
  refine (Quad.get_mapIdx _ _ g).trans (if_neg ?_)
  rw [applyToGroup_eq]
  exact fun he => h ((emptied_iff _ _ _ _).mpr he)

/-- An application at a FAULTED group that it empties: IDLE besides, with v_g and r 0 (07 R128). -/
theorem applyTables_emptied {new : Tables} {s : State} {g : Fin 4} (h : (s.groups.get g).Emptied s.tables.active new g)
    (blend : Option Nat) :
    (applyTables new blend s).groups.get g
      = { applyToGroup (decide (s.lpu.opState = .active)) blend s.tables.active new g (s.groups.get g) with
          state := .idle, speed := 0, residue := 0 } := by
  refine (Quad.get_mapIdx _ _ g).trans (if_pos ?_)
  rw [applyToGroup_eq]
  exact (emptied_iff _ _ _ _).mp h

theorem applyTables_roller (new : Tables) (blend : Option Nat) (s : State) (i : Fin 4) :
    (applyTables new blend s).rollers.get i
      = if (s.tables.active.rollers.get i).group = (new.rollers.get i).group then s.rollers.get i
        else { s.rollers.get i with published := .safe } :=
  Quad.get_mapIdx _ _ i

/-- The direction an application leaves: STEADY where a change of N_t brings an inward blend to its end (05 R87). -/
theorem appliedDir_eq (old nt : Nat) (x : Group) :
    (if old = nt then x.dir else x.dirIn nt)
      = if old ≠ nt ∧ x.dir = .inward ∧ min x.blendPos nt = nt then .steady else x.dir := by
  unfold Group.dirIn
  by_cases h : old = nt <;> simp [h]

/-- What every application keeps of a group, and what it does to its blends (04 R65, R66; 05 R87). -/
theorem applyTables_blends (new : Tables) (blend : Option Nat) (s : State) (g : Fin 4) :
    let x := s.groups.get g
    let y := (applyTables new blend s).groups.get g
    let old := s.tables.active
    let nt := (new.groups.get g).trackBlend
    y = { x with
      state := y.state, speed := y.speed, residue := y.residue
      loadBlend := appliedBlend (decide (s.lpu.opState = .active)) blend old new g x
      blendPos := if (old.groups.get g).trackBlend = nt then x.blendPos else x.posIn nt
      dir := if (old.groups.get g).trackBlend = nt then x.dir else x.dirIn nt } := by
  intro x y old nt
  by_cases h : x.Emptied old new g
  · rw [show y = _ from applyTables_emptied h blend, applyToGroup_eq]
  · rw [show y = _ from applyTables_group h blend, applyToGroup_eq]

/-- Settles O57: the marks by the fold over the places (`tableWork_first`), the records by the recursion over the list
(`tableWork_record`), and an application field by field (`applyTables_blends`). -/
theorem dueChangesTaken : Obligations.DueChangesTaken := by
  refine ⟨fun s e => ⟨fun hmarks hhead => ?nothing, fun r rest hmarks hlist hdue => ?record, fun p before after hsplit hbefore hp => ?mark,
    groupChangeOk_iff s⟩, rfl, LiveDue.at_put, fun s new blend => ⟨rfl, applyTables_roller new blend s, fun g => ?applied⟩⟩
  case nothing =>
    refine tableWork_nothing hmarks fun r hr => ?_
    obtain ⟨d, hd, hlater⟩ := hhead r hr
    rw [isDue_iff]
    exact fun hle => absurd (hle d hd) (Nat.not_le.mpr hlater)
  case record =>
    intro new taken ok
    rw [tableWork_record hmarks hlist ((isDue_iff e r).mpr hdue)]
    refine ⟨fun hok => ?_, fun hnot => ?_⟩
    · rw [takeRecord_applied ((recordPasses_iff r s).mpr hok)]
      rfl
    · rw [takeRecord_dropped fun h => hnot ((recordPasses_iff r s).mp h)]
      rfl
  case mark =>
    intro en new taken ok
    rw [tableWork_first hsplit hbefore e]
    rcases takeLiveDue_cases p s with ⟨hclear, -⟩ | ⟨-, hok, h⟩ | ⟨-, hok, h⟩
    · rw [hp] at hclear
      cases hclear
    · have hok' : ok := Bool.and_eq_true_iff.mp hok
      rw [h]
      exact ⟨fun _ => rfl, fun hnot => absurd hok' hnot⟩
    · have hnot : ¬ ok := fun hok' => by
        rw [Bool.and_eq_true_iff.mpr hok'] at hok
        cases hok
      rw [h]
      exact ⟨fun hok' => absurd hok' hnot, fun _ => rfl⟩
  case applied =>
    intro x nt emptied
    refine ⟨(applyTables_blends new blend s g).trans ?_, fun h => ?_, fun h => ?_⟩
    · rw [appliedDir_eq]
      simp only [appliedBlend, decide_eq_true_eq]
      rfl
    · rw [applyTables_emptied h]
      exact ⟨rfl, rfl, rfl⟩
    · rw [applyTables_group h, applyToGroup_eq]
      exact ⟨rfl, rfl, rfl⟩

end Sys2Proof.Machine
end

section
/-! SUPPORT. The invariant principle: a property that each part of the model's work keeps is kept by every step. It is stated for properties that
speak of neither rollers nor groups; what such a property says of tables, Slot Engine, trace, inputs and the outbound pass is left to it. -/

namespace Sys2Proof.Machine

open Sys2Proof.Laws

/-- A property that each part of the model's work keeps. -/
structure KeptByParts (P : State → Prop) : Prop where
  /-- Supply, RESET line and the queue of commands. -/
  inputs : ∀ s p r l, P s → P { s with powered := p, resetLine := r, pending := l }
  certOn : ∀ s, P s → P (withFreezeEntry s { s with cert := true })
  certOff : ∀ s, P s → P { s with cert := false }
  /-- Whatever acts on rollers and groups alone: the faults, the steps and compositions of groups, the events of log 5. -/
  motion : ∀ s t, OnlyMotion s t → P s → P t
  owner : ∀ r s, P s → P (own r s).2
  service : ∀ s f, P s → P (s.onSvc f)
  stores : ∀ s f, P s → P (s.onStore f)
  /-- Line flags, counts and timers. -/
  line : ∀ s f, (f s.lpu).opState = s.lpu.opState → (f s.lpu).ext = s.lpu.ext → (f s.lpu).last = s.lpu.last → P s → P (s.onLpu f)
  /-- The return pass and the frames sent. -/
  frames : ∀ s r d m, P s → P { s with retPass := r, sentD := d, sentM := m }
  buffers : ∀ s b, P s → P (s.onSlot fun x => { x with buffers := b })
  outGone : ∀ s, P s → P { s with outPass := none }
  outCut : ∀ s, P s → P { s with outPass := cutPass s.outPass }
  header : ∀ s f, P s → P (outHeader f s)
  latched : ∀ s, P s → P (latchFirst s)
  outField : ∀ s i, P s → P (passOutField i s)
  traced : ∀ s, P s → P (traceAppends s)
  /-- An acceptance in ACTIVE, which moves E up, with the accepted cycle that follows (01 R14, R17). -/
  accepted : ∀ order e k resync cycle s, s.lpu.opState = .active → (∀ d, s.lpu.ext = some d → d < e) → P s →
    P (acceptedCycle order e k resync (s.onLpu (acceptLpu e cycle)))
  reset : ∀ keep s, P s → P (resetValues keep s)
  power : ∀ s, P s → P (volatileLost s)
  load : ∀ s, s.lpu.opState = .starting → P s → P (completeLoad s)

theorem foldl_keeps {α : Type} {P : State → Prop} {f : State → α → State} (hf : ∀ s a, P s → P (f s a)) (l : List α) {s : State}
    (h : P s) : P (l.foldl f s) := by
  induction l generalizing s with
  | nil => exact h
  | cons a l ih => exact ih (hf s a h)

section

variable {P : State → Prop} (hP : KeptByParts P) {s : State}

include hP

/-! ### Requests and the reply queue -/

theorem linkRestart_keeps (e : ReplyEntry) (rep : Reply) (h : P s) : P (linkRestart e rep s) := by
  unfold linkRestart
  split
  · exact hP.stores s _ h
  · exact h

theorem serveNow_keeps (r : Request) (h : P s) : P (serveNow r s).2 :=
  hP.service (own r s).2 (fun x => { x with lastReply := some (own r s).1 }) (hP.owner r s h)

theorem serveRow_keeps (r : Request) (h : P s) : P (serveRow r s) := by
  have hserved := serveNow_keeps hP r h
  unfold serveRow
  split
  · simp only
    split
    · exact linkRestart_keeps hP _ _ (hP.service _ _ hserved)
    · exact hserved
  · exact h

theorem answerOf_keeps (e : ReplyEntry) (h : P s) : P (answerOf e s).2 := by
  unfold answerOf
  split
  · exact h
  · split
    · exact linkRestart_keeps hP _ _ (serveNow_keeps hP _ h)
    · exact h

theorem restartEffect_keeps (h : P s) : P (restartEffect s) := by
  have hserved : P (serveOutstanding s) := foldl_keeps (fun _ e => answerOf_keeps hP e) _ h
  exact hP.frames _ _ _ _ (hP.outCut _ (hP.reset true _ hserved))

theorem afterQueue_keeps (h : P s) : P (afterQueue s) := by
  unfold afterQueue
  split
  · exact restartEffect_keeps hP h
  · exact h

theorem recordUnanswered_keeps (e : ReplyEntry) (c : ResultCode) (h : P s) : P (recordUnanswered e c s) :=
  hP.service _ _ (hP.line s _ rfl rfl rfl h)

theorem resultPresent_keeps (e : ReplyEntry) (rep : Reply) (h : P s) : P (resultPresent e rep s) := by
  unfold resultPresent
  split
  · exact hP.service s _ h
  · simp only
    split
    · exact recordUnanswered_keeps hP _ _ (hP.service s _ h)
    · exact hP.service s _ h

theorem completeService_keeps (n : Nat) (h : P s) : P (completeService n s) := by
  unfold completeService
  split
  · exact afterQueue_keeps hP (resultPresent_keeps hP _ _ (answerOf_keeps hP _ h))
  · exact h

theorem dropEntry_keeps (e : ReplyEntry) (h : P s) : P (dropEntry e s) := by
  have hremoved : P (removeEntry e.id s) := hP.service s _ h
  unfold dropEntry
  split
  · exact recordUnanswered_keeps hP _ _ hremoved
  · exact hP.service _ _ hremoved

theorem dropSilently_keeps (e : ReplyEntry) (h : P s) : P (dropSilently e s) := by
  have hremoved : P (removeEntry e.id s) := hP.service s _ h
  unfold dropSilently
  split
  · exact hremoved
  · exact hP.service _ _ hremoved

theorem matchReturn_keeps (cycle : BitVec 16) (h : P s) : P (matchReturn cycle s).2 := by
  unfold matchReturn
  split
  · exact foldl_keeps (fun _ e => dropEntry_keeps hP e) _ h
  · exact h

theorem takeFromFrame_keeps (p : Pass) (h : P s) : P (takeFromFrame p s) := by
  have hroom : P (makeRoom s) := by
    unfold makeRoom
    repeat' split
    all_goals first | exact h | exact dropEntry_keeps hP _ h
  unfold takeFromFrame
  split
  · exact hP.service _ _ hroom
  · exact h

/-! ### Time that passes -/

theorem silenceExpiry_keeps (h : P s) : P (silenceExpiry s) :=
  hP.motion _ _ (lineFault_onlyMotion _) (hP.line s _ rfl rfl rfl h)

theorem elapse_keeps (inclusive : Bool) (dt : Nat) (h : P s) : P (elapse inclusive dt s) := by
  have hsilent (b : Bool) : P (if b then silenceExpiry s else s) := by
    split
    · exact silenceExpiry_keeps hP h
    · exact h
  unfold elapse
  simp only
  split
  · exact restartEffect_keeps hP h
  · split
    · exact restartEffect_keeps hP (hsilent _)
    · exact hP.service _ _ (hP.stores _ _ (hP.line _ _ rfl rfl rfl (hsilent _)))

theorem silenceEnds_keeps (h : P s) : P (silenceEnds s) := by
  unfold silenceEnds
  split
  · exact elapse_keeps hP _ _ h
  · exact h

theorem restartWaitEnds_keeps (h : P s) : P (restartWaitEnds s) := by
  unfold restartWaitEnds
  split
  · exact elapse_keeps hP _ _ h
  · exact h

/-! ### Frames in passage -/

theorem headerArrives_keeps (port : Port) (f : LinkFrame) (h : P s) : P (headerArrives port f s) := by
  have hmatch : P (if (newPass s f).followed then matchReturn (frameCycle f.bytes) s else (none, s)).2 := by
    split
    · exact matchReturn_keeps hP _ h
    · exact h
  unfold headerArrives
  split
  · cases port with
    | m => exact hP.header s f h
    | d => exact afterQueue_keeps hP (hP.frames _ _ _ _ (hP.buffers _ _ hmatch))
  · exact h

theorem passInField_keeps (i : Fin 4) (h : P s) : P (passInField i s) := by
  unfold passInField
  repeat' split
  all_goals first | exact h | exact hP.buffers s _ h

theorem passReport_keeps (h : P s) : P (passReport s) := by
  unfold passReport
  repeat' split
  all_goals first | exact h | exact hP.frames s _ _ _ h

theorem answerFrame_keeps (p : Pass) (e : ReplyEntry) (h : P s) : P (answerFrame p e s) := by
  unfold answerFrame
  split
  · exact hP.frames _ _ _ _ (hP.service s _ h)
  · exact hP.frames _ _ _ _ (dropEntry_keeps hP e h)

theorem passService_keeps (h : P s) : P (passService s) := by
  unfold passService
  repeat' split
  all_goals first | exact h | exact afterQueue_keeps hP (answerFrame_keeps hP _ _ h)

theorem checkBad_keeps (h : P s) : P (checkBad s) := hP.line s _ rfl rfl rfl h

/-- A frame that has left its port is in passage no longer. -/
theorem outSent_keeps (d : Option SentFrame) (h : P s) : P { s with outPass := none, sentD := d } :=
  hP.frames _ _ d _ (hP.outGone s h)

theorem closeOut_keeps (h : P s) : P (closeOut s) := by
  unfold closeOut
  split
  · rename_i p _
    have hsent := outSent_keeps hP (some (sentFrame p)) h
    split
    · simp only
      split
      · exact hsent
      · split
        · exact afterQueue_keeps hP (takeFromFrame_keeps hP p hsent)
        · exact checkBad_keeps hP hsent
    · exact h
  · exact h

theorem cutCheck_keeps (p : Pass) (h : P s) : P (cutCheck p s) := by
  unfold cutCheck
  split
  · exact h
  · exact checkBad_keeps hP h

theorem cutReply_keeps (p : Pass) (h : P s) : P (cutReply p s) := by
  unfold cutReply
  repeat' split
  all_goals first | exact h | exact dropSilently_keeps hP _ h

theorem cutShort_keeps (port : Port) (h : P s) : P (cutShort port s) := by
  unfold cutShort
  cases port with
  | m =>
    simp only
    repeat' split
    all_goals first | exact h | exact cutCheck_keeps hP _ (outSent_keeps hP _ h)
  | d =>
    simp only
    repeat' split
    all_goals first
      | exact h
      | exact afterQueue_keeps hP (hP.buffers _ _ (cutReply_keeps hP _ (cutCheck_keeps hP _ (hP.frames s _ _ _ h))))

/-! ### Acceptance -/

/-- A resync moves E up, by a whole turn where the gap is 0 (01 R15). -/
theorem acceptResync_keeps (order : List (Fin 4)) {e : Nat} (gap : Nat) (cycle : BitVec 16) (ho : s.lpu.opState = .active)
    (he : s.lpu.ext = some e) (h : P s) : P (acceptResync order e gap cycle s) := by
  unfold acceptResync
  refine hP.accepted order _ 1 true cycle _ (by rw [lineFault_lpu]; exact ho) (fun d hd => ?_)
    (hP.motion _ _ (lineFault_onlyMotion _) (hP.line s _ rfl rfl rfl h))
  rw [lineFault_lpu] at hd
  obtain rfl : e = d := Option.some.inj (he.symm.trans hd)
  split <;> omega

theorem classify_keeps (order : List (Fin 4)) (cycle : BitVec 16) (ho : s.lpu.opState = .active) (h : P s) :
    P (classify order cycle s) := by
  unfold classify
  split
  · rename_i hnone
    exact hP.accepted order _ 1 false cycle s ho (fun d hd => by rw [hnone] at hd; cases hd) h
  · rename_i e he
    simp only
    split
    · exact acceptResync_keeps hP order _ cycle ho he h
    · split
      · exact hP.line s _ rfl rfl rfl h
      · rename_i hgap
        split
        · refine hP.accepted order _ _ false cycle (s.onLpu _) ho (fun d hd => ?_) (hP.line s _ rfl rfl rfl h)
          obtain rfl : e = d := Option.some.inj (he.symm.trans hd)
          omega
        · exact acceptResync_keeps hP order _ cycle ho he h

theorem goodReturn_keeps (order : List (Fin 4)) (p : Pass) (h : P s) : P (goodReturn order p s) := by
  unfold goodReturn
  split
  · exact hP.line s _ rfl rfl rfl h
  · split
    · rename_i haccept
      unfold mayAccept at haccept
      simp only [Bool.and_eq_true, decide_eq_true_eq] at haccept
      obtain ⟨-, ho⟩ := haccept
      exact classify_keeps hP order _ ho h
    · exact h

theorem closeReturn_keeps (dt : Nat) (order : List (Fin 4)) (h : P s) : P (closeReturn dt order s) := by
  have helapsed := elapse_keeps hP false dt h
  unfold closeReturn
  simp only
  generalize elapse false dt s = u at helapsed ⊢
  split
  · rename_i p _
    have hsent : P { u with retPass := none, sentM := some (sentFrame p) } := hP.frames u _ _ _ helapsed
    repeat' split
    all_goals first
      | exact h
      | exact hP.buffers _ _ hsent
      | exact hP.buffers _ _ (goodReturn_keeps hP order p hsent)
      | exact hP.buffers _ _ (checkBad_keeps hP hsent)
  · exact h

/-! ### Every command -/

theorem assertReset_keeps (a b : Nat) (h : P s) : P (assertReset a b s) := by
  unfold assertReset
  split
  · exact h
  · split
    · exact hP.inputs _ _ _ _ (hP.frames _ _ _ _ (hP.outGone _ (hP.reset false s h)))
    · exact hP.inputs s _ _ _ h

theorem loadComplete_keeps (h : P s) : P (loadComplete s) := by
  unfold loadComplete
  split
  · rename_i hstarting
    simp only [Bool.and_eq_true, decide_eq_true_eq] at hstarting
    obtain ⟨-, ho⟩ := hstarting
    exact hP.load s ho h
  · exact h

theorem saveDone_keeps (v : Bool) (h : P s) : P (saveDone v s) := by
  unfold saveDone
  repeat' split
  all_goals first | exact h | exact hP.stores s _ h

/-- Every command answers a next state, in which the property holds if it held before. -/
theorem exec_keeps (c : Instr) (h : P s) : ∃ t, exec c s = .next t ∧ P t := by
  cases c with
  | powerUp | powerDown => exact ⟨_, rfl, hP.inputs _ _ _ _ (hP.power s h)⟩
  | resetAssert a b => exact ⟨_, rfl, assertReset_keeps hP a b h⟩
  | resetRelease => exact ⟨_, rfl, hP.inputs s _ _ _ h⟩
  | storeLoadComplete => exact ⟨_, rfl, loadComplete_keeps hP h⟩
  | passHeader port f => exact ⟨_, rfl, headerArrives_keeps hP port f h⟩
  | frameCutShort port => exact ⟨_, rfl, cutShort_keeps hP port h⟩
  | firstOutField => exact ⟨_, rfl, hP.latched s h⟩
  | outFieldPassage i => exact ⟨_, rfl, hP.outField s i h⟩
  | inFieldPassage i => exact ⟨_, rfl, passInField_keeps hP i h⟩
  | reportFieldArrival => exact ⟨_, rfl, passReport_keeps hP h⟩
  | serviceAreaReturn => exact ⟨_, rfl, passService_keeps hP h⟩
  | outboundCheckWord => exact ⟨_, rfl, closeOut_keeps hP h⟩
  | serviceComplete n => exact ⟨_, rfl, completeService_keeps hP n h⟩
  | returnCheckWord dt order => exact ⟨_, rfl, closeReturn_keeps hP dt order h⟩
  | stageTimerExpiry i => exact ⟨_, rfl, hP.motion _ _ (stageExpires_onlyMotion i s) h⟩
  | loadBlendEnd g => exact ⟨_, rfl, hP.motion _ _ (loadBlendEnds_onlyMotion g s) h⟩
  | settleTimerExpiry g => exact ⟨_, rfl, hP.motion _ _ (settleExpires_onlyMotion g s) h⟩
  | trackBlendInEnd g => exact ⟨_, rfl, hP.motion _ _ (trackBlendIn_onlyMotion g s) h⟩
  | trackBlendOutEnd g => exact ⟨_, rfl, hP.motion _ _ (trackBlendOut_onlyMotion g s) h⟩
  | traceRecordAppend => exact ⟨_, rfl, hP.traced s h⟩
  | lineSilenceExpiry => exact ⟨_, rfl, silenceEnds_keeps hP h⟩
  | certAssert => exact ⟨_, rfl, hP.certOn s h⟩
  | certRelease => exact ⟨_, rfl, hP.certOff s h⟩
  | saveComplete v => exact ⟨_, rfl, saveDone_keeps hP v h⟩
  | restartEffect => exact ⟨_, rfl, restartWaitEnds_keeps hP h⟩
  | _ => exact ⟨_, exec_request rfl s, serveRow_keeps hP _ h⟩

/-- A property that each part of the model's work keeps is kept by every step. -/
theorem step_keeps {t : State} (hs : P s) (h : step s = .next t) : P t := by
  unfold step at h
  split at h
  · rename_i c rest _
    obtain ⟨u, hu, hkept⟩ := exec_keeps hP c (hP.inputs s s.powered s.resetLine rest hs)
    obtain rfl : u = t := Host.Outcome.next.inj (hu.symm.trans h)
    exact hkept
  · obtain rfl := Host.Outcome.next.inj h
    exact elapse_keeps hP true 1 hs

end

end Sys2Proof.Machine
end

section
/-! SUPPORT. The sets the part holds (02 R28, R29; 05 R92): who changes the current set and the latched one, and what each leaves of RELEASE and
ENABLE. -/

namespace Sys2Proof.Machine

/-- The set latched for the frame in passage, if there is one, carries RELEASE only with ENABLE (02 R29, R31). -/
def LatchedOk (o : Option Pass) : Prop := ∀ p x, o = some p → p.latched = some x → releaseWithEnable x

theorem commandsOk_iff (s : State) : CommandsOk s ↔ releaseWithEnable s.slot.current ∧ LatchedOk s.outPass := Iff.rfl

theorem latchedOk_none : LatchedOk none := fun _ _ h => by cases h

theorem latchedOk_some {p : Pass} (h : ∀ x, p.latched = some x → releaseWithEnable x) : LatchedOk (some p) := fun q x hq hx => by
  obtain rfl := Option.some.inj hq
  exact h x hx

/-- A change that leaves a pass its latched set. -/
theorem LatchedOk.map {o : Option Pass} (h : LatchedOk o) {f : Pass → Pass} (hf : ∀ p, (f p).latched = p.latched) :
    LatchedOk (o.map f) := by
  intro q x hq hx
  obtain ⟨p, hp, rfl⟩ := Option.map_eq_some_iff.mp hq
  exact h p x hp ((hf p).symm.trans hx)

theorem SameButStation.latchedOk {o o' : Option Pass} (k : SameButStation o o') (h : LatchedOk o) : LatchedOk o' := by
  rcases k with rfl | ⟨n, rfl⟩
  · exact h
  · exact h.map fun p => by rw [Pass.meetStation_spec]

/-- The initial set (02 R28). -/
theorem releaseWithEnable_clear : releaseWithEnable (Quad.all Command.clear) := fun i h => by
  rw [Quad.get_all] at h
  cases h

/-- No stage assigns RELEASE without ENABLE (06 R96). -/
theorem controlOf_enable_of_release {q : Sequence} (h : (controlOf q).2 = true) : (controlOf q).1 = true := by
  rcases (controlOf_release q).mp h with hst | hst <;> simp [controlOf, hst]

/-- A published set takes its control words from the stages (05 R92). -/
theorem releaseWithEnable_setOf (s : State) (outs : Quad Int) : releaseWithEnable (setOf s outs) := fun i h => by
  rw [setOf_get] at h ⊢
  exact controlOf_enable_of_release h

theorem latchedSet_ok {s : State} {p : Pass} (h : CommandsOk s) (hp : s.outPass = some p) : releaseWithEnable (latchedSet s p) := by
  obtain ⟨hcurrent, hlatched⟩ := h
  unfold latchedSet
  cases hset : p.latched with
  | none => exact hcurrent
  | some x => exact hlatched p x hp hset

/-- A pass that has latched the set of its frame (02 R29). -/
theorem CommandsOk.latch {s : State} {p q : Pass} (h : CommandsOk s) (hp : s.outPass = some p)
    (hq : q.latched = some (latchedSet s p)) : CommandsOk { s with outPass := some q } :=
  ⟨h.1, latchedOk_some fun x hx => by
    obtain rfl := Option.some.inj (hq.symm.trans hx)
    exact latchedSet_ok h hp⟩

theorem latchFirst_commands {s : State} (h : CommandsOk s) : CommandsOk (latchFirst s) := by
  unfold latchFirst
  split
  · rename_i p off hp _
    split
    · exact h.latch hp rfl
    · exact h
  · exact h

theorem passOutField_commands (i : Fin 4) {s : State} (h : CommandsOk s) : CommandsOk (passOutField i s) := by
  unfold passOutField
  split
  · rename_i p off _ hp _
    split
    · exact h.latch hp rfl
    · exact h
  · exact h

/-- Of all requests START alone replaces the current set, by the initial one (02 R28). -/
theorem own_current (r : Request) (s : State) :
    (own r s).2.slot.current = s.slot.current ∨ (own r s).2.slot.current = Quad.all Command.clear := by
  have happlied {t : State} (h : OnlyApplied s t) : t.slot.current = s.slot.current := by
    obtain ⟨-, -, -, -, -, -, -, -, hslot, -⟩ := h.fields
    rw [hslot]
  cases r with
  | start =>
    show (ownStart s).2.slot.current = _ ∨ (ownStart s).2.slot.current = _
    unfold ownStart
    repeat' split
    all_goals first | exact .inl rfl | exact .inr rfl
  | halt =>
    show (ownHalt s).2.slot.current = _ ∨ _
    have hhalted : (haltRun s).slot.current = s.slot.current := by
      obtain ⟨-, -, -, -, -, -, -, -, hslot, -⟩ := (haltAllLiveDue_onlyApplied (runEnds s)).fields
      show (haltAllLiveDue (runEnds s)).slot.current = (runEnds s).slot.current
      rw [hslot]
    unfold ownHalt
    repeat' split
    all_goals first | exact .inl rfl | exact .inl hhalted
  | group g a =>
    obtain ⟨-, -, -, -, -, -, -, -, hslot, -⟩ := (ownGroup_only g a s).fields
    exact .inl (congrArg SlotEngine.current hslot)
  | readEntry t i c =>
    show (ownReadEntry t i c s).2.slot.current = _ ∨ _
    unfold ownReadEntry
    simp only
    repeat' split
    all_goals exact .inl rfl
  | commit m p e b =>
    show (ownCommit m p e b s).2.slot.current = _ ∨ _
    unfold ownCommit commitActive commitBypass noteStation
    simp only
    repeat' split
    all_goals exact .inl rfl
  | identify | readStatus | clearFlags => exact .inl rfl
  | writeEntry t i e => exact .inl (happlied (ownWriteEntry_only t i e s))
  | setLive t v => exact .inl (happlied (ownSetLive_only t v s))
  | cancel m => exact .inl (happlied (ownCancel_only m s))
  | lock m md => exact .inl (happlied (ownLock_only m md s))
  | freeze => exact .inl (happlied (ownFreeze_only s))
  | thaw => exact .inl (happlied (ownThaw_only s))
  | traceSet g d e => exact .inl (by rw [own, ownTraceSet_only])
  | readTrace => exact .inl (by rw [own, ownReadTrace_only])
  | storeSave => exact .inl (by rw [own, ownStoreSave_only])
  | restart => exact .inl (by rw [own, ownRestart_only])

theorem own_commands (r : Request) {s : State} (h : CommandsOk s) : CommandsOk (own r s).2 := by
  obtain ⟨hcurrent, hlatched⟩ := h
  refine ⟨?_, (own_kept r s).outPass.latchedOk hlatched⟩
  rcases own_current r s with e | e
  · rw [e]
    exact hcurrent
  · rw [e]
    exact releaseWithEnable_clear

/-- An operation that leaves the current set and the outbound pass as they are. -/
theorem CommandsOk.of_fields {s t : State} (h : CommandsOk s) (hc : t.slot.current = s.slot.current) (ho : t.outPass = s.outPass) :
    CommandsOk t := by
  rw [commandsOk_iff, hc, ho]
  exact h

theorem completeLoad_fields (s : State) : (completeLoad s).slot = s.slot ∧ (completeLoad s).outPass = s.outPass := by
  unfold completeLoad withFreezeEntry loadTables
  simp only
  repeat' split
  all_goals exact ⟨rfl, rfl⟩

theorem commandsOk_keptByParts : KeptByParts CommandsOk where
  inputs _ _ _ _ h := h
  certOn s h := h.of_fields (by unfold withFreezeEntry; split <;> rfl) (by unfold withFreezeEntry; split <;> rfl)
  certOff _ h := h
  motion s t hm h := by
    rw [hm]
    exact h
  owner r _ h := own_commands r h
  service _ _ h := h
  stores _ _ h := h
  line _ _ _ _ _ h := h
  frames _ _ _ _ h := h
  buffers _ _ h := h
  outGone _ h := ⟨h.1, latchedOk_none⟩
  outCut _ h := ⟨h.1, LatchedOk.map h.2 fun _ => rfl⟩
  header _ _ h := ⟨h.1, latchedOk_some fun _ hx => by cases hx⟩
  latched _ h := latchFirst_commands h
  outField _ i h := passOutField_commands i h
  traced s h := by
    unfold traceAppends
    split <;> exact h
  accepted order e k resync cycle s _ _ h := by
    obtain ⟨-, hcurrent, -⟩ := acceptedCycle_published order e k resync (s.onLpu (acceptLpu e cycle))
    obtain ⟨-, -, -, -, hout, -⟩ := (acceptedCycle_only order e k resync (s.onLpu (acceptLpu e cycle))).fields
    rw [commandsOk_iff, hcurrent, hout]
    exact ⟨releaseWithEnable_setOf _ _, h.2⟩
  reset _ _ h := ⟨releaseWithEnable_clear, h.2⟩
  power _ _ := ⟨releaseWithEnable_clear, latchedOk_none⟩
  load s _ h := by
    obtain ⟨hslot, hout⟩ := completeLoad_fields s
    exact h.of_fields (congrArg SlotEngine.current hslot) hout

/-- Settles O43 by the invariant principle (`step_keeps`): a set is published from the stages, which assign no RELEASE without ENABLE
(`releaseWithEnable_setOf`), it is latched whole, and START and the reset events give the initial set. -/
theorem releaseNeverWithoutEnable : Obligations.ReleaseNeverWithoutEnable := fun _ _ => step_keeps commandsOk_keptByParts

end Sys2Proof.Machine
end

section
/-! SUPPORT. Coupling (Chapter 5): the clamp, the rate limit and the setpoint of a member (R88 to R91), and the track correction with its share
of corr_max (R84). -/

namespace Sys2Proof.Machine

/-! ### The setpoint -/

theorem clampAbs_eq (x : Int) (l : Nat) : clampAbs x l = max (-(l : Int)) (min x l) := by
  simp [clampAbs, clampAround]

theorem clampAbs_ne_iff (x : Int) (l : Nat) : clampAbs x l ≠ x ↔ l < x.natAbs := by
  rw [clampAbs_eq]
  omega

theorem clampActs_iff (cfg : RollersEntry) (c : Composed) (r : Roller) :
    clampActs cfg c r = true ↔ r.seq.stage = .released ∧ cfg.vmax < c.sum.natAbs := by
  simp [clampActs, isReleased, ← clampAbs_ne_iff]

/-- The rate of a member is d_stop while its group is STOPPING, a_max otherwise (05 R89). -/
theorem memberRate_eq (cfg : RollersEntry) (st : GroupState) : memberRate cfg st = if st = .stopping then cfg.dStop else cfg.aMax := by
  cases st <;> rfl

/-- A limited setpoint is the clamped sum, or the previous setpoint moved by a step toward it (05 R88, R89). -/
theorem limitSetpoint_spec (vmax step : Nat) (prev sum : Int) :
    let s := max (-(vmax : Int)) (min sum vmax)
    let y := limitSetpoint vmax step prev sum
    (y - prev).natAbs ≤ step ∧ y.natAbs ≤ max vmax prev.natAbs ∧ min s prev ≤ y ∧ y ≤ max s prev
      ∧ ((s - prev).natAbs ≤ step → y = s) ∧ (prev + step < s → y = prev + step) ∧ (s + step < prev → y = prev - step) := by
  intro s y
  have hs : s.natAbs ≤ vmax := by omega
  have hy : y = max (prev - step) (min s (prev + step)) := by
    simp only [y, limitSetpoint, clampAbs_eq, clampAround, s]
  rw [hy]
  clear_value s
  omega

theorem composeMember_setpoint (t : Tables) (g i : Fin 4) (k : Nat) (x : Group) (corrects : Bool) (err : Option Int) (r : Roller) :
    let cfg := t.rollers.get i
    let c := composeMember t g i k x corrects err r
    c.setpoint = if r.seq.stage = .released then
      limitSetpoint cfg.vmax (rateStep (memberRate cfg x.state) k t.cell.cycleUs) r.coup.prevSet c.sum else 0 := by
  simp [composeMember, isReleased]

/-- Settles O39: the clamp acts exactly where the magnitude exceeds vmax (`clampActs_iff`), and a RELEASED member's setpoint is the limited
sum (`limitSetpoint_spec`). -/
theorem setpointsLimited : Obligations.SetpointsLimited := by
  refine ⟨fun s g comps => ?clamp, fun t g i k x corrects err r => ?setpoint⟩
  case clamp =>
    intro acts x
    have hacts : (four.any fun i => isMember s.tables.active g i
        && clampActs (s.tables.active.rollers.get i) (comps.get i) (s.rollers.get i)) = true ↔ acts := by
      simp only [four_any, Bool.and_eq_true, clampActs_iff, isMember, beq_iff_eq, acts]
    exact ⟨fun h => if_pos (hacts.mpr h), fun h => if_neg fun hany => h (hacts.mp hany)⟩
  case setpoint =>
    intro cfg c a step s
    have hset := composeMember_setpoint t g i k x corrects err r
    simp only [memberRate_eq] at hset
    refine ⟨rfl, fun hst => hset.trans (if_neg hst), fun hst => ?_⟩
    rw [show c.setpoint = _ from hset.trans (if_pos hst)]
    exact limitSetpoint_spec cfg.vmax step r.coup.prevSet c.sum

/-! ### The correction -/

theorem roundHalfAway_natAbs (n : Int) (d : Nat) : (roundHalfAway n d).natAbs = (2 * n.natAbs + d) / (2 * d) := by
  unfold roundHalfAway
  generalize (2 * n.natAbs + d) / (2 * d) = q
  simp only
  split <;> omega

theorem roundHalfAway_zero {d : Nat} (hd : 0 < d) : roundHalfAway 0 d = 0 := by
  rw [← Int.natAbs_eq_zero, roundHalfAway_natAbs]
  exact Nat.div_eq_of_lt (by omega)

theorem roundHalfAway_nonneg {n : Int} {d : Nat} (hd : 0 < d) (h : 0 ≤ n) : 0 ≤ roundHalfAway n d :=
  (roundHalfAway_between (b := n) hd (by simpa using h) (le_mul_of_one_le_right h (by omega))).1

theorem roundHalfAway_nonpos {n : Int} {d : Nat} (hd : 0 < d) (h : n ≤ 0) : roundHalfAway n d ≤ 0 :=
  (roundHalfAway_between (a := n) hd (mul_le_of_one_le_right h (by omega)) (by simpa using h)).2

/-- The clamped correction of an error, before the blend (05 R84). -/
def clampedCorrection (x : GroupsEntry) (e : Int) : Int := max (-(x.corrMax : Int)) (min (roundHalfAway (x.kp * e) 1000000000) x.corrMax)

theorem correction_eq (x : GroupsEntry) (b : Nat) (e : Int) :
    correction x b e = roundHalfAway (clampedCorrection x e * b) x.trackBlend := by
  rw [correction, clampAbs_eq, clampedCorrection]

theorem clampedCorrection_le (x : GroupsEntry) (e : Int) : (clampedCorrection x e).natAbs ≤ x.corrMax := by
  unfold clampedCorrection
  omega

/-- What is rounded lies within the share of corr_max (05 R84). -/
theorem blended_le (x : GroupsEntry) (b : Nat) (e : Int) : (clampedCorrection x e * b).natAbs ≤ x.corrMax * b := by
  rw [Int.natAbs_mul, Int.natAbs_natCast]
  exact Nat.mul_le_mul_right b (clampedCorrection_le x e)

theorem correction_le_share (x : GroupsEntry) (b : Nat) (e : Int) :
    (correction x b e).natAbs ≤ (2 * (x.corrMax * b) + x.trackBlend) / (2 * x.trackBlend) := by
  have h := blended_le x b e
  rw [correction_eq, roundHalfAway_natAbs]
  exact Nat.div_le_div_right (by omega)

theorem correction_le_corrMax {x : GroupsEntry} (hn : 0 < x.trackBlend) {b : Nat} (hb : b ≤ x.trackBlend) (e : Int) :
    (correction x b e).natAbs ≤ x.corrMax := by
  have hshare : (clampedCorrection x e * b).natAbs ≤ x.corrMax * x.trackBlend :=
    (blended_le x b e).trans (Nat.mul_le_mul_left _ hb)
  obtain ⟨hlow, hhigh⟩ := roundHalfAway_between (n := clampedCorrection x e * b) (a := -x.corrMax) (b := x.corrMax) hn
    (by rw [neg_mul]; omega) (by omega)
  rw [correction_eq]
  omega

/-- An error and its correction have the same sign (05 R84). -/
theorem correction_sign {x : GroupsEntry} (hn : 0 < x.trackBlend) (b : Nat) (e : Int) :
    (0 ≤ e → 0 ≤ correction x b e) ∧ (e ≤ 0 → correction x b e ≤ 0) := by
  have hkp : (0 : Int) ≤ x.kp := Int.natCast_nonneg _
  have hb : (0 : Int) ≤ b := Int.natCast_nonneg _
  rw [correction_eq]
  constructor
  · intro he
    have hround := roundHalfAway_nonneg (d := 1000000000) (by decide) (mul_nonneg hkp he)
    exact roundHalfAway_nonneg hn (mul_nonneg (by unfold clampedCorrection; omega) hb)
  · intro he
    have hround := roundHalfAway_nonpos (d := 1000000000) (by decide) (mul_nonpos_of_nonneg_of_nonpos hkp he)
    exact roundHalfAway_nonpos hn (mul_nonpos_of_nonpos_of_nonneg (by unfold clampedCorrection; omega) hb)

/-- Nothing is corrected with no gain, no allowance or no blend (05 R84). -/
theorem correction_zero {x : GroupsEntry} (hn : 0 < x.trackBlend) {b : Nat} (h : x.kp = 0 ∨ x.corrMax = 0 ∨ b = 0) (e : Int) :
    correction x b e = 0 := by
  have hnothing : clampedCorrection x e * b = 0 := by
    rcases h with h | h | h
    · simp [clampedCorrection, h, roundHalfAway_zero]
    · have hle := clampedCorrection_le x e
      rw [show clampedCorrection x e = 0 by omega, zero_mul]
    · simp [h]
  rw [correction_eq, hnothing, roundHalfAway_zero hn]

/-- What the steps of a correction reach, with the entry in its ranges and the error within the slip limit (05 R84, 08 R135). -/
theorem correction_products_le {y : GroupsEntry} (hcheck : groupsCheck y = true) {b : Nat} {e : Int}
    (he : e.natAbs ≤ y.slipLimit * 1000000) (hb : b ≤ y.trackBlend) :
    0 < y.trackBlend ∧ (y.kp * e).natAbs ≤ 40000000000000 ∧ (clampedCorrection y e * b).natAbs ≤ 5000 * 4096 := by
  obtain ⟨-, -, -, hkp, hcorr, -, hslip, hpos, hblend⟩ := (entryCheck_iff (.groups y)).mp hcheck
  refine ⟨hpos, ?_, (blended_le y b e).trans (Nat.mul_le_mul hcorr (hb.trans hblend))⟩
  rw [Int.natAbs_mul, Int.natAbs_natCast]
  exact (Nat.mul_le_mul hkp (he.trans (Nat.mul_le_mul_right _ hslip))).trans (by decide)

/-! ### Who is corrected -/

theorem trackErrors_get (g i : Fin 4) (s : State) :
    (trackErrors g s).get i = if (s.groups.get g).state = .track ∧ isMember s.tables.active g i = true then trackError (s.rollers.get i)
      else none := by
  simp [trackErrors]

theorem trackErrors_none {g : Fin 4} {s : State} (h : (s.groups.get g).state ≠ .track) : trackErrors g s = Quad.all none :=
  Quad.ext_get fun i => by simp [trackErrors_get, h]

/-- The sum of a member is its base speed, and in TRACK with an error its correction besides (05 R78). -/
theorem composedAll_sum (g i : Fin 4) (k : Nat) (errs : Quad (Option Int)) (s : State) :
    ((composedAll g k errs s).get i).sum = ((composedAll g k errs s).get i).base
      + if (s.groups.get g).state = .track then
          (errs.get i).elim 0 (correction (s.tables.active.groups.get g) (s.groups.get g).blendPos) else 0 := by
  rw [composedAll, Quad.get_of]
  unfold composeMember
  cases errs.get i <;> simp

/-- Settles O40: the bounds and signs of a correction by its rounding, and who is corrected by `composedAll_sum`. -/
theorem correctionStaysInShare : Obligations.CorrectionStaysInShare := by
  refine ⟨fun x b e hn hb => ⟨correction_eq x b e, correction_le_share x b e, correction_le_corrMax hn hb e,
    fun h => correction_zero hn (.inr (.inr h)) e, (correction_sign hn b e).1⟩, fun g k errs s => ?_⟩
  intro x
  refine ⟨fun h => ⟨trackErrors_none h, fun i => ?_⟩, fun h i e he => ?_, fun y b e hcheck he hb => ?_⟩
  · rw [composedAll_sum, if_neg h, add_zero]
  · rw [composedAll_sum, if_pos h, he]
    rfl
  · obtain ⟨hpos, hgain, hproduct⟩ := correction_products_le hcheck he hb
    exact ⟨fun h => correction_zero hpos h e, hgain, hproduct, (correction_sign hpos b e).2⟩

end Sys2Proof.Machine
end

section
/-! SUPPORT. One of four set twice, and set to what it is. -/

namespace Sys2Proof

@[simp] theorem Quad.set_set {α : Type} (q : Quad α) (i : Fin 4) (a b : α) : (q.set i a).set i b = q.set i b := by
  fin_cases i <;> rfl

@[simp] theorem Quad.set_get {α : Type} (q : Quad α) (i : Fin 4) : q.set i (q.get i) = q := by
  fin_cases i <;> rfl

end Sys2Proof
end

section
/-! SUPPORT. Tracking through a composition (Chapter 5): references and errors (R81, R82), the loss of the track (R82), the blend position and
its ends (R85), and a changed N_t (R87). -/

namespace Sys2Proof.Machine

/-! ### References -/

theorem onMembers_get (s : State) (g i : Fin 4) (f : Roller → Roller) :
    (s.onMembers g f).rollers.get i = if isMember s.tables.active g i then f (s.rollers.get i) else s.rollers.get i :=
  Quad.get_mapIdx _ _ i

theorem advanceRefs_of_not_track {g : Fin 4} {s : State} (h : (s.groups.get g).state ≠ .track) (k : Nat) : advanceRefs g k s = s :=
  if_neg h

theorem advanceRefs_of_track {g : Fin 4} {s : State} (h : (s.groups.get g).state = .track) (k : Nat) :
    advanceRefs g k s = s.onMembers g (advanceReference k (periodOf s)) :=
  if_pos h

theorem advanceRefs_groups (g : Fin 4) (k : Nat) (s : State) : (advanceRefs g k s).groups = s.groups := by
  unfold advanceRefs
  split <;> rfl

theorem advanceRefs_tables (g : Fin 4) (k : Nat) (s : State) : (advanceRefs g k s).tables = s.tables := by
  unfold advanceRefs
  split <;> rfl

theorem advanceReference_none {r : Roller} (h : r.coup.reference = none) (k t : Nat) : advanceReference k t r = r := by
  unfold advanceReference
  rw [h, Option.map_none, ← h]

/-- Within signed 64 bits a reference advances exactly (05 R81). -/
theorem advanceReference_some {r : Roller} {ref : Int} (h : r.coup.reference = some ref) (k t : Nat)
    (hhigh : ref + r.coup.prevBase * k * t ≤ 9223372036854775807) (hlow : -9223372036854775808 ≤ ref + r.coup.prevBase * k * t) :
    advanceReference k t r = { r with coup := { r.coup with reference := some (ref + r.coup.prevBase * k * t) } } := by
  have hdest : r.coup.prevBase * (k * t : Nat) = r.coup.prevBase * k * t := by
    push_cast
    ring
  unfold advanceReference fitReference
  rw [h, Option.map_some, hdest, if_pos ⟨hlow, by omega⟩]

/-! ### The blend -/

/-- The state after tracking has ended (05 R85). -/
theorem endTrack_eq (g : Fin 4) (s : State) :
    endTrack g s = { s with
      groups := s.groups.set g { s.groups.get g with state := .follow, blendPos := 0, dir := .none }
      rollers := s.rollers.mapIdx fun i r => if isMember s.tables.active g i then
          { r with coup := { r.coup with reference := none } } else r } := by
  simp [endTrack, discardTrack, State.onGroup, State.onMembers]

/-- In IN the position moves up to N_t, where STEADY follows (05 R85). -/
theorem moveBlend_inward {x : Group} (h : x.dir = .inward) (nt k : Nat) :
    let b := min (x.blendPos + k) nt
    moveBlend nt k x = ({ x with blendPos := b, dir := if b = nt then .steady else .inward }, false) := by
  rw [moveBlend, h]

/-- In OUT it moves down, and tracking ends where it reaches 0 (05 R85). -/
theorem moveBlend_outward {x : Group} (h : x.dir = .outward) (nt k : Nat) :
    moveBlend nt k x = ({ x with blendPos := x.blendPos - k }, decide (x.blendPos - k = 0)) := by
  rw [moveBlend, h]

theorem moveBlend_still {x : Group} (h : x.dir = .steady ∨ x.dir = .none) (nt k : Nat) : moveBlend nt k x = (x, false) := by
  unfold moveBlend
  rcases h with h | h <;> rw [h]

theorem blendStep_of_not_track {g : Fin 4} {s : State} (h : (s.groups.get g).state ≠ .track) (k : Nat) : blendStep g k s = s :=
  if_neg h

section

variable {g : Fin 4} {s : State} (htrack : (s.groups.get g).state = .track)

include htrack

theorem blendStep_of_track (k : Nat) : blendStep g k s = moveTrackBlend g k s := if_pos htrack

theorem blendStep_inward (hdir : (s.groups.get g).dir = .inward) (k : Nat) :
    let nt := (s.tables.active.groups.get g).trackBlend
    let b := min ((s.groups.get g).blendPos + k) nt
    blendStep g k s = s.onGroup g fun x => { x with blendPos := b, dir := if b = nt then .steady else .inward } := by
  rw [blendStep_of_track htrack, moveTrackBlend, moveBlend_inward hdir]
  rfl

theorem blendStep_still (hdir : (s.groups.get g).dir = .steady ∨ (s.groups.get g).dir = .none) (k : Nat) : blendStep g k s = s := by
  rw [blendStep_of_track htrack, moveTrackBlend, moveBlend_still hdir]
  simp [State.onGroup]

theorem blendStep_outward (hdir : (s.groups.get g).dir = .outward) {k : Nat} (hk : k < (s.groups.get g).blendPos) :
    blendStep g k s = s.onGroup g fun x => { x with blendPos := x.blendPos - k } := by
  have hleft : ¬ (s.groups.get g).blendPos - k = 0 := by omega
  rw [blendStep_of_track htrack, moveTrackBlend, moveBlend_outward hdir]
  exact if_neg fun h => hleft (of_decide_eq_true h)

theorem blendStep_ends (hdir : (s.groups.get g).dir = .outward) {k : Nat} (hk : (s.groups.get g).blendPos ≤ k) :
    blendStep g k s = endTrack g s := by
  rw [blendStep_of_track htrack, moveTrackBlend, moveBlend_outward hdir]
  refine (if_pos (decide_eq_true (Nat.sub_eq_zero_of_le hk))).trans ?_
  simp [endTrack_eq, State.onGroup]

end

theorem trackBlendIn_eq {g : Fin 4} {s : State} (hactive : s.lpu.opState = .active) (htrack : (s.groups.get g).state = .track)
    (hdir : (s.groups.get g).dir = .inward) :
    trackBlendIn g s = s.onGroup g fun x => { x with blendPos := (s.tables.active.groups.get g).trackBlend, dir := .steady } :=
  if_pos (by simp [inRun, hactive, htrack, hdir])

theorem trackBlendOut_eq {g : Fin 4} {s : State} (hactive : s.lpu.opState = .active) (htrack : (s.groups.get g).state = .track)
    (hdir : (s.groups.get g).dir = .outward) : trackBlendOut g s = endTrack g s :=
  if_pos (by simp [inRun, hactive, htrack, hdir])

/-- Settles O42: the ends alone, the references and the blend by direction, what each member keeps, and a changed N_t by the application's
own law (`applyTables_blends`). -/
theorem trackBlendEnds : Obligations.TrackBlendEnds := by
  refine ⟨fun s g hactive htrack => ⟨fun hdir => ?inEnd, fun hdir => ?outEnd⟩, fun s g k => ?moves,
    fun s g comps => ⟨rfl, fun i => Quad.get_mapIdx _ _ i⟩, fun s g new blend => ?applied⟩
  case inEnd => exact congrArg Host.Outcome.next (trackBlendIn_eq hactive htrack hdir)
  case outEnd => exact congrArg Host.Outcome.next ((trackBlendOut_eq hactive htrack hdir).trans (endTrack_eq g s))
  case moves =>
    intro x nt b
    refine ⟨fun h => ⟨blendStep_of_not_track h k, advanceRefs_of_not_track h k⟩, fun htrack =>
      ⟨fun hdir => blendStep_inward htrack hdir k, fun hdir => blendStep_still htrack (.inl hdir) k,
        fun hdir hk => blendStep_outward htrack hdir hk, fun hdir hk => (blendStep_ends htrack hdir hk).trans (endTrack_eq g s),
        fun i => ?_⟩⟩
    rw [advanceRefs_of_track htrack, onMembers_get]
    refine ⟨fun hm => by rw [hm]; rfl, fun hm => ?_⟩
    rw [if_pos hm]
    exact ⟨fun href => advanceReference_none href k _, fun ref href hhigh hlow => advanceReference_some href k _ hhigh hlow⟩
  case applied =>
    intro x y nt
    have happlied := applyTables_blends new blend s g
    have hpos : y.blendPos = if (s.tables.active.groups.get g).trackBlend = nt then x.blendPos else x.posIn nt :=
      congrArg Group.blendPos happlied
    have hdir : y.dir = if (s.tables.active.groups.get g).trackBlend = nt then x.dir else x.dirIn nt := congrArg Group.dir happlied
    refine ⟨fun h => ?_, fun h => ?_⟩
    · rw [hpos, hdir, if_pos h, if_pos h]
      exact ⟨rfl, rfl⟩
    · rw [hpos, hdir, if_neg h, if_neg h]
      unfold Group.posIn Group.dirIn
      refine ⟨fun hd => ?_, fun hd => ?_, fun hd => ?_, fun hd => ?_⟩ <;> simp [hd]

end Sys2Proof.Machine
end

section
/-! SUPPORT. The loss of the track in a composition (05 R82): what the check of the errors leaves of a group in TRACK, and what the rest of its
composition leaves of that. -/

namespace Sys2Proof.Machine

/-! ### The check of the errors -/

/-- The error of a member is formed from the reference as this composition has advanced it (05 R82). -/
theorem trackError_advanced (g i : Fin 4) (k : Nat) (s : State) :
    trackError ((advanceRefs g k s).rollers.get i)
      = ((advanceRefs g k s).rollers.get i).coup.reference.map fun ref => ref - (s.rollers.get i).chan.distance := by
  unfold trackError
  rw [advanceRefs_channels]

/-- An error of a member lies beyond the slip limit of its group (05 R82). -/
def TrackLost (g : Fin 4) (k : Nat) (s : State) : Prop :=
  ∃ i e, (s.tables.active.rollers.get i).group = some g.val ∧ trackError ((advanceRefs g k s).rollers.get i) = some e
    ∧ (s.tables.active.groups.get g).slipLimit * 1000000 < e.natAbs

theorem beyondSlip_iff (slip : Nat) (o : Option Int) : beyondSlip slip o = true ↔ ∃ e, o = some e ∧ slip * 1000000 < e.natAbs := by
  cases o <;> simp [beyondSlip]

/-- The errors of a composition, as its check finds them (05 R82). -/
theorem trackErrors_advanced (g i : Fin 4) (k : Nat) (s : State) :
    (trackErrors g (advanceRefs g k s)).get i
      = if (s.groups.get g).state = .track ∧ isMember s.tables.active g i = true then trackError ((advanceRefs g k s).rollers.get i)
        else none := by
  rw [trackErrors_get, advanceRefs_groups, advanceRefs_tables]

theorem trackIsLost_iff (g : Fin 4) (k : Nat) (s : State) :
    trackIsLost g (trackErrors g (advanceRefs g k s)) (advanceRefs g k s) = true ↔ (s.groups.get g).state = .track ∧ TrackLost g k s := by
  unfold trackIsLost TrackLost
  simp only [four_any, beyondSlip_iff, trackErrors_advanced, advanceRefs_tables, isMember, beq_iff_eq]
  constructor
  · rintro ⟨i, e, he, hlimit⟩
    split at he
    · rename_i h
      exact ⟨h.1, i, e, h.2, he, hlimit⟩
    · cases he
  · rintro ⟨htrack, i, e, hm, he, hlimit⟩
    exact ⟨i, e, by rw [if_pos ⟨htrack, hm⟩, he], hlimit⟩

theorem checkTrack_lost {g : Fin 4} {k : Nat} {s : State} (htrack : (s.groups.get g).state = .track) (h : TrackLost g k s) :
    checkTrack g k s = loseTrack g (advanceRefs g k s) :=
  if_pos ((trackIsLost_iff g k s).mpr ⟨htrack, h⟩)

theorem checkTrack_kept {g : Fin 4} {k : Nat} {s : State} (h : ¬ ((s.groups.get g).state = .track ∧ TrackLost g k s)) :
    checkTrack g k s = advanceRefs g k s :=
  if_neg fun hlost => h ((trackIsLost_iff g k s).mp hlost)

/-- A group whose track is lost (05 R82, R86). -/
def Group.trackLost (x : Group) : Group :=
  { x with
    state := .stopping, cause := .trackLost, windDown := false, settle := none, residue := 0, blendPos := 0, dir := .none
    flags := { x.flags with trackLost := true } }

theorem loseTrack_group (g : Fin 4) (s : State) : (loseTrack g s).groups.get g = (s.groups.get g).trackLost := by
  simp [loseTrack, enterStopping, discardTrack, Group.trackLost]

theorem loseTrack_roller (g i : Fin 4) (s : State) :
    (loseTrack g s).rollers.get i
      = if isMember s.tables.active g i then { s.rollers.get i with coup := { (s.rollers.get i).coup with reference := none } }
        else s.rollers.get i :=
  Quad.get_mapIdx _ _ i

/-! ### What a composition forms -/

/-- The composition of a group before its blend position moves (05 Section 5.2). -/
def formed (g : Fin 4) (k : Nat) (s : State) : State :=
  let comps := composedAll g k (trackErrors g (advanceRefs g k s)) (checkTrack g k s)
  keepAll g comps (markClamp g comps (checkTrack g k s))

theorem composeGroup_formed (g : Fin 4) (k : Nat) (sp : State × Quad Int) : (composeGroup g k sp).1 = blendStep g k (formed g k sp.1) := rfl

theorem onGroup_unchanged {s : State} {g : Fin 4} {f : Group → Group} (h : f (s.groups.get g) = s.groups.get g) : s.onGroup g f = s := by
  rw [State.onGroup, h, Quad.set_get]

theorem markClamp_only_setSat (g : Fin 4) (comps : Quad Composed) (s : State) :
    ∃ b, markClamp g comps s = s.onGroup g fun x => { x with flags := { x.flags with setSat := b } } := by
  unfold markClamp
  split
  · exact ⟨true, rfl⟩
  · exact ⟨(s.groups.get g).flags.setSat, (onGroup_unchanged rfl).symm⟩

/-- What the check has left of the group stays, but for SET_SAT (05 R88). -/
theorem formed_group (g : Fin 4) (k : Nat) (s : State) :
    ∃ b, (formed g k s).groups.get g
      = { (checkTrack g k s).groups.get g with flags := { ((checkTrack g k s).groups.get g).flags with setSat := b } } := by
  obtain ⟨b, hb⟩ := markClamp_only_setSat g (composedAll g k (trackErrors g (advanceRefs g k s)) (checkTrack g k s)) (checkTrack g k s)
  refine ⟨b, ?_⟩
  show (markClamp g _ (checkTrack g k s)).groups.get g = _
  rw [hb, State.onGroup_groups, Quad.get_set_same]

/-- A member keeps its error, and the reference that the check has left (05 R79). -/
theorem formed_member {g i : Fin 4} {s : State} (hm : isMember s.tables.active g i = true) (k : Nat) :
    ((formed g k s).rollers.get i).coup.error = (trackErrors g (advanceRefs g k s)).get i
      ∧ ((formed g k s).rollers.get i).coup.reference = ((checkTrack g k s).rollers.get i).coup.reference
      ∧ ((formed g k s).rollers.get i).chan = (s.rollers.get i).chan := by
  have hchan : ((checkTrack g k s).rollers.get i).chan = (s.rollers.get i).chan := checkTrack_channels g k s i
  unfold formed
  simp only
  generalize hcomps : composedAll g k (trackErrors g (advanceRefs g k s)) (checkTrack g k s) = comps
  obtain ⟨-, -, -, -, -, -, -, -, -, htables, -⟩ :=
    ((checkTrack_onlyMotion g k s).trans (markClamp_onlyMotion g comps _)).fields
  obtain ⟨b, hb⟩ := markClamp_only_setSat g comps (checkTrack g k s)
  have hroller : (keepAll g comps (markClamp g comps (checkTrack g k s))).rollers.get i
      = keepComposed (comps.get i) ((checkTrack g k s).rollers.get i) := by
    refine (Quad.get_mapIdx _ _ i).trans ?_
    rw [htables, if_pos hm, hb]
    rfl
  rw [hroller, keepComposed, ← hcomps]
  refine ⟨?_, rfl, hchan⟩
  rw [composedAll, Quad.get_of]
  rfl

/-! ### The group after its composition -/

theorem blendStep_runs_on {g : Fin 4} {s : State} (htrack : (s.groups.get g).state = .track) {k : Nat}
    (h : ¬ ((s.groups.get g).dir = .outward ∧ (s.groups.get g).blendPos ≤ k)) :
    ∃ b d, blendStep g k s = s.onGroup g fun x => { x with blendPos := b, dir := d } := by
  have hstill (hdir : (s.groups.get g).dir = .steady ∨ (s.groups.get g).dir = .none) :
      blendStep g k s = s.onGroup g fun x => { x with blendPos := (s.groups.get g).blendPos, dir := (s.groups.get g).dir } :=
    (blendStep_still htrack hdir k).trans (onGroup_unchanged rfl).symm
  cases hdir : (s.groups.get g).dir with
  | inward => exact ⟨_, _, blendStep_inward htrack hdir k⟩
  | outward =>
    have hk : k < (s.groups.get g).blendPos := Nat.lt_of_not_le fun hk => h ⟨hdir, hk⟩
    exact ⟨(s.groups.get g).blendPos - k, (s.groups.get g).dir, blendStep_outward htrack hdir hk⟩
  | steady => exact ⟨_, _, hstill (.inl hdir)⟩
  | none => exact ⟨_, _, hstill (.inr hdir)⟩

theorem blendStep_error (g i : Fin 4) (k : Nat) (s : State) :
    ((blendStep g k s).rollers.get i).coup.error = (s.rollers.get i).coup.error := by
  unfold blendStep moveTrackBlend
  simp only
  repeat' split
  · rw [endTrack_eq, Quad.get_mapIdx]
    split <;> rfl
  · rfl
  · rfl

section

variable {g : Fin 4} {k : Nat} {sp : State × Quad Int}

/-- No composition moves a group into TRACK (05 R80). -/
theorem composeGroup_not_track (h : (sp.1.groups.get g).state ≠ .track) : ((composeGroup g k sp).1.groups.get g).state ≠ .track := by
  obtain ⟨b, hgroup⟩ := formed_group g k sp.1
  rw [checkTrack_kept fun hlost => h hlost.1, advanceRefs_groups] at hgroup
  have hstate : ((formed g k sp.1).groups.get g).state ≠ .track := by
    rw [hgroup]
    exact h
  rw [composeGroup_formed, blendStep_of_not_track hstate]
  exact hstate

/-- A composition that loses the track (05 R82, R86). -/
theorem composeGroup_lost (htrack : (sp.1.groups.get g).state = .track) (hlost : TrackLost g k sp.1) :
    let t := (composeGroup g k sp).1
    let x := (sp.1.groups.get g).trackLost
    (∃ b, t.groups.get g = { x with flags := { x.flags with setSat := b } })
      ∧ ∀ i, isMember sp.1.tables.active g i = true → (t.rollers.get i).coup.reference = none := by
  obtain ⟨b, hgroup⟩ := formed_group g k sp.1
  rw [checkTrack_lost htrack hlost, loseTrack_group, advanceRefs_groups] at hgroup
  have hstate : ((formed g k sp.1).groups.get g).state ≠ .track := by
    rw [hgroup]
    exact nofun
  simp only
  rw [composeGroup_formed, blendStep_of_not_track hstate k]
  refine ⟨⟨b, hgroup⟩, fun i hm => ?_⟩
  obtain ⟨-, hreference, -⟩ := formed_member hm k
  rw [hreference, checkTrack_lost htrack hlost, loseTrack_roller, advanceRefs_tables, if_pos hm]

/-- A composition that keeps the track: it ends where the blend out does, and runs on with references as formed otherwise (05 R85). -/
theorem composeGroup_kept (htrack : (sp.1.groups.get g).state = .track) (hkept : ¬ TrackLost g k sp.1) :
    let t := (composeGroup g k sp).1
    let x := sp.1.groups.get g
    ∃ b p d,
      (x.dir = .outward ∧ x.blendPos ≤ k →
        t.groups.get g = { x with state := .follow, blendPos := p, dir := d, flags := { x.flags with setSat := b } })
      ∧ (¬ (x.dir = .outward ∧ x.blendPos ≤ k) →
        t.groups.get g = { x with blendPos := p, dir := d, flags := { x.flags with setSat := b } }
          ∧ t.rollers = (formed g k sp.1).rollers) := by
  intro t x
  obtain ⟨b, hgroup⟩ := formed_group g k sp.1
  rw [checkTrack_kept fun hlost => hkept hlost.2, advanceRefs_groups] at hgroup
  have hstate : ((formed g k sp.1).groups.get g).state = .track := by rw [hgroup]; exact htrack
  have hdir : ((formed g k sp.1).groups.get g).dir = x.dir := by rw [hgroup]
  have hpos : ((formed g k sp.1).groups.get g).blendPos = x.blendPos := by rw [hgroup]
  by_cases hout : x.dir = .outward ∧ x.blendPos ≤ k
  · have ht : t = endTrack g (formed g k sp.1) := blendStep_ends hstate (hdir.trans hout.1) (hpos.trans_le hout.2)
    refine ⟨b, 0, .none, fun _ => ?_, fun hno => absurd hout hno⟩
    rw [ht, endTrack_eq, Quad.get_set_same, hgroup]
  · obtain ⟨p, d, ht⟩ := blendStep_runs_on hstate (k := k) (by rwa [hdir, hpos])
    refine ⟨b, p, d, fun h => absurd h hout, fun _ => ?_⟩
    rw [show t = _ from ht, State.onGroup_groups, Quad.get_set_same, hgroup]
    exact ⟨rfl, rfl⟩

/-- After its composition no member of a group in TRACK has an error beyond the limit (05 R82). -/
theorem composeGroup_within_slip {i : Fin 4} {ref : Int} (hm : isMember sp.1.tables.active g i = true)
    (htrack : ((composeGroup g k sp).1.groups.get g).state = .track)
    (href : ((composeGroup g k sp).1.rollers.get i).coup.reference = some ref) :
    (ref - ((composeGroup g k sp).1.rollers.get i).chan.distance).natAbs ≤ (sp.1.tables.active.groups.get g).slipLimit * 1000000 := by
  have hbefore : (sp.1.groups.get g).state = .track := by
    by_contra hno
    exact composeGroup_not_track (k := k) hno htrack
  have hkept : ¬ TrackLost g k sp.1 := fun hlost => by
    obtain ⟨⟨b, hgroup⟩, -⟩ := composeGroup_lost hbefore hlost
    rw [hgroup] at htrack
    cases htrack
  obtain ⟨b, p, d, hends, hruns⟩ := composeGroup_kept (k := k) hbefore hkept
  by_cases hout : (sp.1.groups.get g).dir = .outward ∧ (sp.1.groups.get g).blendPos ≤ k
  · rw [hends hout] at htrack
    cases htrack
  · obtain ⟨-, hrollers⟩ := hruns hout
    obtain ⟨-, hreference, hchan⟩ := formed_member hm k
    rw [hrollers, hreference, checkTrack_kept fun h => hkept h.2] at href
    rw [hrollers, hchan]
    refine Nat.le_of_not_lt fun hbeyond => hkept ⟨i, _, beq_iff_eq.mp hm, ?_, hbeyond⟩
    rw [trackError_advanced, href, Option.map_some]

/-- Each member of a group in TRACK keeps its error (05 R79, R82). -/
theorem composeGroup_error {i : Fin 4} (htrack : (sp.1.groups.get g).state = .track) (hm : isMember sp.1.tables.active g i = true) :
    ((composeGroup g k sp).1.rollers.get i).coup.error = trackError ((advanceRefs g k sp.1).rollers.get i) := by
  obtain ⟨he, -⟩ := formed_member hm k
  rw [composeGroup_formed, blendStep_error, he, trackErrors_advanced, if_pos ⟨htrack, hm⟩]

end

/-- Settles O41: whether an error lies beyond the limit decides the check (`trackIsLost_iff`), and a composition keeps the track
(`composeGroup_kept`) or loses it (`composeGroup_lost`) accordingly. -/
theorem trackStaysWithinSlip : Obligations.TrackStaysWithinSlip := by
  intro g k sp s x t y member error limit lost
  have hlost : TrackLost g k s ↔ lost := by
    unfold TrackLost
    simp only [trackError_advanced]
    rfl
  have htables : t.tables = s.tables := by
    obtain ⟨-, -, -, -, -, -, -, -, -, htables, -⟩ := (composeGroup_onlyMotion g k sp).fields
    exact htables
  have hmember {i : Fin 4} (hm : member i) : isMember s.tables.active g i = true := beq_iff_eq.mpr hm
  refine ⟨fun hy i ref hm href => ?_, fun htrack =>
    ⟨fun i hm => (composeGroup_error htrack (hmember hm)).trans (trackError_advanced g i k s), fun hno => ?_, fun h => ?_⟩⟩
  · rw [htables] at hm ⊢
    exact composeGroup_within_slip hm hy href
  · obtain ⟨b, p, d, hends, hruns⟩ := composeGroup_kept (k := k) htrack fun h => hno (hlost.mp h)
    by_cases hout : x.dir = .outward ∧ x.blendPos ≤ k
    · rw [show y = _ from hends hout, if_pos hout]
      exact ⟨rfl, rfl, rfl, rfl, rfl⟩
    · obtain ⟨hy, -⟩ := hruns hout
      rw [show y = _ from hy, if_neg hout]
      exact ⟨htrack, rfl, rfl, rfl, rfl⟩
  · obtain ⟨⟨b, hy⟩, hreferences⟩ := composeGroup_lost htrack (hlost.mpr h)
    rw [show y = _ from hy]
    exact ⟨rfl, rfl, rfl, rfl, rfl, rfl, rfl, rfl, fun i hm => hreferences i (hmember hm)⟩

end Sys2Proof.Machine
end

section
/-! SUPPORT. GROUP requests (07 R115 to R122): how a request of a group with members reaches its action, and what each action does in each state
that takes it. -/

namespace Sys2Proof.Machine

open Sys2Proof.Laws

/-! ### The request -/

theorem groupReply_eq {n : Byte} {g : Fin 4} (hn : n.toNat = g.val) (c : ResultCode) (s : State) :
    groupReply c n s = ⟨c, [BitVec.ofNat 8 (groupByte (viewOf (s.groups.get g)))]⟩ := by
  have hg : n.toNat < 4 := hn ▸ g.isLt
  obtain rfl : (⟨n.toNat, hg⟩ : Fin 4) = g := Fin.ext hn
  rw [groupReply, dif_pos hg]
  rfl

/-- In ACTIVE a request of a group with members is its action (07 R115). -/
theorem ownGroup_eq {s : State} {n a : Byte} {g : Fin 4} {act : Fin 4 → State → Acted} (hactive : s.lpu.opState = .active)
    (ha : groupAction a.toNat = some act) (hn : n.toNat = g.val) (hmembers : hasMembers s.tables.active g = true) :
    ownGroup n a s = (groupReply (act g s).1 n (act g s).2, (act g s).2) := by
  have hg : n.toNat < 4 := hn ▸ g.isLt
  obtain rfl : (⟨n.toNat, hg⟩ : Fin 4) = g := Fin.ext hn
  rw [ownGroup, if_neg (not_not_intro hactive), ha]
  simp only
  rw [dif_pos hg, if_pos hmembers]

theorem exec_group {c : Instr} {s u : State} {n a : Byte} {g : Fin 4} {act : Fin 4 → State → Acted} {code : ResultCode}
    (hc : requestIn c = some (.group n a)) (htakes : takesRequests s = true) (hactive : s.lpu.opState = .active)
    (ha : groupAction a.toNat = some act) (hn : n.toNat = g.val) (hmembers : hasMembers s.tables.active g = true)
    (hact : act g s = (code, u)) :
    ∃ t, exec c s = .next t ∧ Replied ⟨code, [BitVec.ofNat 8 (groupByte (viewOf (u.groups.get g)))]⟩ u t := by
  have hown : own (.group n a) s = (groupReply (act g s).1 n (act g s).2, (act g s).2) := ownGroup_eq hactive ha hn hmembers
  rw [hact, groupReply_eq hn] at hown
  exact exec_replied hc htakes hown nofun

/-! ### Tests over the members -/

theorem allMembers_iff (s : State) (g : Fin 4) (p : Roller → Bool) :
    allMembers s g p = true ↔ ∀ i, isMember s.tables.active g i = true → p (s.rollers.get i) = true := by
  unfold allMembers
  rw [four_all]
  refine forall_congr' fun i => ?_
  cases isMember s.tables.active g i <;> simp

theorem anyMember_iff (s : State) (g : Fin 4) (p : Roller → Bool) :
    anyMember s g p = true ↔ ∃ i, isMember s.tables.active g i = true ∧ p (s.rollers.get i) = true := by
  unfold anyMember
  simp only [four_any, Bool.and_eq_true]

theorem driveReady_iff (r : Roller) : driveReady r = true ↔ ∃ st, r.chan.lastStatus = some st ∧ st.ready = true ∧ st.fault = false := by
  unfold driveReady
  cases r.chan.lastStatus <;> simp

theorem driveFaulted_iff (r : Roller) : driveFaulted r = true ↔ ∃ st, r.chan.lastStatus = some st ∧ st.fault = true := by
  unfold driveFaulted
  cases r.chan.lastStatus <;> simp

/-- What ENGAGE asks of a group in IDLE (07 R116). -/
theorem mayEngage_iff (g : Fin 4) (s : State) :
    mayEngage g s = true ↔ s.lpu.ext ≠ none ∧ ∀ i, isMember s.tables.active g i = true →
      (s.rollers.get i).chan.latch = Latch.clear
        ∧ ∃ st, (s.rollers.get i).chan.lastStatus = some st ∧ st.ready = true ∧ st.fault = false := by
  have hlatch (l : Latch) : l.isSet = false ↔ l = Latch.clear := by
    rw [← Bool.not_eq_true, Latch.isSet_iff, not_not]
  unfold mayEngage
  simp only [Bool.and_eq_true, allMembers_iff, Option.isSome_iff_ne_none, Bool.not_eq_true', hlatch, driveReady_iff]

/-! ### What the actions do to a member -/

/-- An enable direction moves a SAFE roller to ENABLING (06 R99). -/
theorem enableDirection_eq : enableDirection = fun r => if r.seq.stage = .safe then { r with seq := enterTimed .enabling } else r := by
  funext r
  unfold enableDirection
  cases r.seq.stage <;> rfl

/-- An apply direction moves a RELEASED roller to APPLYING at rest, and is held otherwise (06 R104). -/
theorem applyDirection_eq (band : Nat) : applyDirection band = fun r =>
    if r.seq.stage = .released then
      (if r.coup.prevSet = 0 ∧ r.chan.speed.natAbs ≤ band then { r with seq := enterTimed .applying }
      else { r with seq := { r.seq with held := .apply } })
    else r := by
  funext r
  by_cases hst : r.seq.stage = .released
  · have htest : applyDirection band r = testApply band { r with seq := { r.seq with held := .apply } } := by
      unfold applyDirection testHeld
      simp only [hst]
    rw [htest, testApply_eq, if_pos hst]
    simp [hst]
  · unfold applyDirection
    rw [if_neg hst]
    split
    · exact absurd ‹_› hst
    · rfl

/-- The entry to STOPPING (07 R120). -/
theorem enterStopping_eq (c : StopCause) (g : Fin 4) (s : State) :
    enterStopping c g s = { s with
      groups := s.groups.set g { s.groups.get g with
        state := .stopping, cause := c, windDown := false, settle := none, residue := 0, blendPos := 0, dir := .none }
      rollers := s.rollers.mapIdx fun i r => if isMember s.tables.active g i then
        { r with coup := { r.coup with reference := none } } else r } := by
  simp [enterStopping, discardTrack, State.onGroup, State.onMembers]

/-! ### The actions -/

section

variable {g : Fin 4} {s : State}

theorem actEngage_idle (hst : (s.groups.get g).state = .idle) (h : mayEngage g s = true) : actEngage g s = (.done, beginEngage g s) := by
  rw [actEngage, hst]
  exact if_pos h

theorem actTrack_turns (hst : (s.groups.get g).state = .track) (hdir : (s.groups.get g).dir = .outward) :
    actTrack g s = (.done, s.onGroup g fun x => { x with dir := .inward }) := by
  rw [actTrack, hst, hdir]

theorem actTrack_nothing (hst : (s.groups.get g).state = .track) (hdir : (s.groups.get g).dir ≠ .outward) :
    actTrack g s = (.done, s) := by
  rw [actTrack, hst]
  cases h : (s.groups.get g).dir <;> first | rfl | exact absurd h hdir

theorem actUntrack_turns (hst : (s.groups.get g).state = .track) (hdir : (s.groups.get g).dir ≠ .outward) :
    actUntrack g s = (.done, s.onGroup g fun x => { x with dir := .outward }) := by
  rw [actUntrack, hst]
  cases h : (s.groups.get g).dir <;> first | rfl | exact absurd h hdir

theorem actUntrack_nothing (hst : (s.groups.get g).state = .follow ∨ ((s.groups.get g).state = .track ∧ (s.groups.get g).dir = .outward)) :
    actUntrack g s = (.done, s) := by
  unfold actUntrack
  rcases hst with hst | ⟨hst, hdir⟩
  · rw [hst]
  · rw [hst, hdir]

theorem actStop_stops (hst : (s.groups.get g).state = .follow ∨ (s.groups.get g).state = .track) :
    actStop g s = (.done, enterStopping .request g s) := by
  unfold actStop
  rcases hst with hst | hst <;> rw [hst]

theorem actClear_clears (hst : (s.groups.get g).state = .idle ∨ (s.groups.get g).state = .faulted)
    (h : ¬ anyMember s g driveFaulted = true) : actClear g s = (.done, clearGroup g s) := by
  unfold actClear
  rcases hst with hst | hst <;> rw [hst] <;> exact if_neg h

end

/-- Settles O49: every cell reaches its action (`exec_group`), and each action's effect is one equation. -/
theorem groupActionsMoveGroups : Obligations.GroupActionsMoveGroups := by
  intro s n g htakes hactive hn hmembers x mem done
  have answers {c : Instr} {a : Byte} {act : Fin 4 → State → Acted} {u : State} (hc : requestIn c = some (.group n a))
      (ha : groupAction a.toNat = some act) (hact : act g s = (.done, u)) : done c u :=
    exec_group hc htakes hactive ha hn hmembers hact
  refine ⟨fun hst hext hready => ?engage, fun hst => ?run, fun hst => ?track, fun hst hdir => answers rfl rfl (actTrack_turns hst hdir),
    fun hst hdir => answers rfl rfl (actUntrack_turns hst hdir), fun hst => ?stop, fun hst => ?disengage, fun hst hclear => ?clear,
    fun hst => ?engaging, fun hst => ?following, fun hst hdir => answers rfl rfl (actTrack_nothing hst hdir),
    fun hst => answers rfl rfl (actUntrack_nothing hst), fun hst => ?stopping, fun hst => ?disengaging⟩
  case engage =>
    refine answers rfl rfl ((actEngage_idle hst ((mayEngage_iff g s).mpr ⟨hext, hready⟩)).trans ?_)
    rw [beginEngage, enableDirection_eq]
    rfl
  case run => exact answers rfl rfl (by rw [actRun, hst]; rfl)
  case track => exact answers rfl rfl (by rw [actTrack, hst]; rfl)
  case stop => exact answers rfl rfl ((actStop_stops hst).trans (by rw [enterStopping_eq]))
  case disengage =>
    refine answers rfl rfl ?_
    rw [actDisengage, hst, beginDisengage, applyDirection_eq]
    rfl
  case clear =>
    refine answers rfl rfl ((actClear_clears hst fun hany => ?_).trans rfl)
    obtain ⟨i, hm, hfaulted⟩ := (anyMember_iff s g driveFaulted).mp hany
    obtain ⟨st, hstatus, hfault⟩ := (driveFaulted_iff _).mp hfaulted
    exact Bool.false_ne_true ((hclear i st hm hstatus).symm.trans hfault)
  case engaging => exact answers rfl rfl (by rw [actEngage, hst])
  case following => exact answers rfl rfl (by rw [actRun, hst])
  case stopping => exact answers rfl rfl (by rw [actStop, hst])
  case disengaging => exact answers rfl rfl (by rw [actDisengage, hst])

end Sys2Proof.Machine
end

section
/-! SUPPORT. The stage work of an accepted cycle (06 R98): the acknowledgement check (R106), each stage's own test (R100 to R105), held
directions (R102, R104), the stage timer (R107, R108), and the moves of the sequence that they make together. -/

namespace Sys2Proof.Machine

/-! ### The status of a sample -/

/-- A status that fails the acknowledgement check raises DRIVE_FAULT and forces SAFE (06 R106). -/
theorem sampleStep_fails {x : Status} {r : Roller} (h : ackOk r.seq.stage x ≠ true) :
    sampleStep x r = ({ forceSafe r with chan := raiseFault .driveFault r.chan }, true, true) := if_neg h

/-- A status that passes the acknowledgement check is left to the stage's own test (06 R98). -/
theorem sampleStep_passes {x : Status} {r : Roller} (h : ackOk r.seq.stage x = true) :
    sampleStep x r = ({ r with seq := (stageTest x r.seq).1 }, false, (stageTest x r.seq).2) := if_pos h

/-- Of the sequence the ready count changes itself and the enable alone (06 R100). -/
theorem countReady_onlyCounts (x : Status) (q : Sequence) :
    ∃ n c, countReady x q = { q with readyCount := n, commanded := c } := by
  unfold countReady
  repeat' split
  all_goals exact ⟨_, _, rfl⟩

/-- A READY sample without FAULT adds one to the ready count, whose reaching 2 commands the enable (06 R100). -/
theorem countReady_ready {x : Status} {q : Sequence} (hready : x.ready = true) (hfault : x.fault = false) (hcommanded : q.commanded = false) :
    countReady x q = { q with readyCount := q.readyCount + 1, commanded := decide (q.readyCount + 1 = 2) } := by
  rw [countReady, if_pos hready, hfault, if_neg Bool.false_ne_true]
  split
  · next h => rw [h, decide_eq_true rfl]
  · next h => rw [decide_eq_false h, ← hcommanded]

/-- A sample without READY clears the ready count (06 R100). -/
theorem countReady_notReady {x : Status} {q : Sequence} (hready : x.ready = false) : countReady x q = { q with readyCount := 0 } := by
  rw [countReady, hready, if_neg Bool.false_ne_true]

section

variable {x : Status} {q : Sequence}

theorem stageTest_counting (hst : q.stage = .enabling) (h : q.commanded = false) : stageTest x q = (countReady x q, false) := by
  rw [stageTest, hst]
  simp only [h, Bool.false_eq_true, if_false]

theorem stageTest_commanded (hst : q.stage = .enabling) (h : q.commanded = true) :
    stageTest x q = if x.enabled = true then (enterTimed .energised, true) else (q, false) := by
  rw [stageTest, hst]
  simp only [h, if_true]

theorem stageTest_releasing (hst : q.stage = .releasing) :
    stageTest x q = if x.brakeOpen = true then (enterReleased, true) else (q, false) := by
  rw [stageTest, hst]

theorem stageTest_applying (hst : q.stage = .applying) :
    stageTest x q = if x.brakeOpen = false ∧ x.enabled = true then (enterTimed .disabling, true) else (q, false) := by
  rw [stageTest, hst]
  simp

theorem stageTest_disabling (hst : q.stage = .disabling) :
    stageTest x q = if x.enabled = true then (q, false) else (Sequence.safe, true) := by
  rw [stageTest, hst]

/-- SAFE, ENERGISED and RELEASED have no test of their own (06 R98). -/
theorem stageTest_waits (hst : q.stage = .safe ∨ q.stage = .energised ∨ q.stage = .released) : stageTest x q = (q, false) := by
  rcases hst with hst | hst | hst <;> rw [stageTest, hst]

end

/-- A stage's own test either leaves the stage, with what is held, or enters another with nothing held. -/
theorem stageTest_held (x : Status) (q : Sequence) :
    (stageTest x q).1.held = .none ∨ ∃ n c, (stageTest x q).1 = { q with readyCount := n, commanded := c } := by
  have stays : ∃ n c, q = { q with readyCount := n, commanded := c } := ⟨_, _, rfl⟩
  unfold stageTest
  split
  case h_1 =>
    split
    · split
      · exact .inl rfl
      · exact .inr stays
    · exact .inr (countReady_onlyCounts x q)
  case h_2 | h_3 =>
    split
    · exact .inl rfl
    · exact .inr stays
  case h_4 =>
    split
    · exact .inr stays
    · exact .inl rfl
  case h_5 => exact .inr stays

/-! ### Held directions -/

/-- The test of a held direction: a held release within the band, a held apply within it at a previous setpoint of 0 (06 R98, R102, R104). -/
theorem testHeld_eq (band : Nat) (r : Roller) : testHeld band r =
    if r.seq.stage = .energised ∧ r.seq.held = .release ∧ r.chan.speed.natAbs ≤ band then { r with seq := enterTimed .releasing }
    else if r.seq.stage = .released ∧ r.seq.held = .apply ∧ r.coup.prevSet = 0 ∧ r.chan.speed.natAbs ≤ band then
      { r with seq := enterTimed .applying }
    else r := by
  rw [← testApply_eq]
  unfold testHeld
  split
  · next hst hheld => simp [hst, hheld, atRest, testApply]
  · next hno =>
    rw [if_neg]
    rintro ⟨hst, hheld, -⟩
    exact hno hst hheld

theorem testHeld_nothingHeld (band : Nat) {r : Roller} (h : r.seq.held = .none) : testHeld band r = r := by
  rw [testHeld_eq, h, if_neg (by simp), if_neg (by simp)]

/-! ### The three steps of the stage work -/

theorem timerStep_stopped {timeout k : Nat} {r : Roller} (h : r.seq.timer = none) : timerStep timeout k r = (r, false) := by
  rw [timerStep, h]

/-- A running timer advances by k, stopping at 65,535, and expires at or above the timeout (06 R107, R108). -/
theorem timerStep_running {timeout k n : Nat} {r : Roller} (h : r.seq.timer = some n) :
    timerStep timeout k r = if timeout ≤ min 65535 (n + k) then (timeOut r, true)
      else ({ r with seq := { r.seq with timer := some (min 65535 (n + k)) } }, false) := by
  rw [timerStep, h]
  rfl

/-- The timer changes no stage but by its expiry (06 R107, R108). -/
theorem timerStep_stage (timeout k : Nat) (r : Roller) :
    (timerStep timeout k r).1.seq.stage = r.seq.stage ∨ (timerStep timeout k r).1.seq.stage = .safe := by
  cases h : r.seq.timer with
  | none => exact .inl (by rw [timerStep_stopped h])
  | some n =>
    rw [timerStep_running h]
    split
    · exact .inr rfl
    · exact .inl rfl

/-- The held directions and the timer after the step on the sample: `a` is that step's roller, and whether it raised a hard fault and
changed the stage (06 R98). -/
def heldAndTimer (timeout band k : Nat) (a : Roller × Bool × Bool) : Roller × Bool :=
  let b := testHeld band a.1
  if a.2.2 || decide (b.seq.stage ≠ a.1.seq.stage) then (b, a.2.1)
  else ((timerStep timeout k b).1, a.2.1 || (timerStep timeout k b).2)

theorem stageWork_fresh (timeout band k : Nat) (x : Status) (r : Roller) :
    stageWork timeout band k (some x) r = heldAndTimer timeout band k (sampleStep x r) := rfl

theorem stageWork_stale (timeout band k : Nat) (r : Roller) :
    stageWork timeout band k none r = heldAndTimer timeout band k (r, false, false) := rfl

section

variable {timeout band k : Nat} {a : Roller × Bool × Bool}

/-- The timer of a stage that this work has entered does not advance, nor one that is stopped (06 R107). -/
theorem heldAndTimer_noTimer
    (h : a.2.2 = true ∨ (testHeld band a.1).seq.stage ≠ a.1.seq.stage ∨ (testHeld band a.1).seq.timer = none) :
    heldAndTimer timeout band k a = (testHeld band a.1, a.2.1) := by
  by_cases hmoved : (a.2.2 || decide ((testHeld band a.1).seq.stage ≠ a.1.seq.stage)) = true
  · exact if_pos hmoved
  · refine (if_neg hmoved).trans ?_
    rw [Bool.or_eq_true, decide_eq_true_eq, not_or] at hmoved
    obtain ⟨hentered, hstage⟩ := hmoved
    rw [timerStep_stopped ((h.resolve_left hentered).resolve_left hstage), Bool.or_false]

/-- A running timer advances in a stage that this work has not entered, and expires at or above the timeout (06 R107, R108). -/
theorem heldAndTimer_timer {n : Nat} (hentered : a.2.2 = false) (hstage : (testHeld band a.1).seq.stage = a.1.seq.stage)
    (hn : (testHeld band a.1).seq.timer = some n) :
    let b := testHeld band a.1
    (min 65535 (n + k) < timeout →
        heldAndTimer timeout band k a = ({ b with seq := { b.seq with timer := some (min 65535 (n + k)) } }, a.2.1))
      ∧ (timeout ≤ min 65535 (n + k) → heldAndTimer timeout band k a = (timeOut b, true)) := by
  intro b
  have hstays : heldAndTimer timeout band k a = ((timerStep timeout k b).1, a.2.1 || (timerStep timeout k b).2) :=
    if_neg (by simp [hentered, hstage])
  rw [hstays, timerStep_running hn]
  exact ⟨fun h => by rw [if_neg (Nat.not_le.mpr h), Bool.or_false], fun h => by rw [if_pos h, Bool.or_true]⟩

theorem heldAndTimer_stage (timeout band k : Nat) (a : Roller × Bool × Bool) :
    (heldAndTimer timeout band k a).1.seq.stage = (testHeld band a.1).seq.stage
      ∨ (heldAndTimer timeout band k a).1.seq.stage = .safe := by
  unfold heldAndTimer
  simp only
  split
  · exact .inl rfl
  · exact timerStep_stage timeout k _

end

/-! ### The moves of the sequence -/

/-- The stages to which the stage work can bring a roller, with what each asks (06, Order of brake and enable; R101 to R105). -/
inductive StageMove (band : Nat) (x : Option Status) (r : Roller) : Stage → Prop
  | stays : StageMove band x r r.seq.stage
  | forced : StageMove band x r .safe
  | energises {st : Status} (hstage : r.seq.stage = .enabling) (hcommanded : r.seq.commanded = true) (hx : x = some st)
      (henabled : st.enabled = true) : StageMove band x r .energised
  | releases (hstage : r.seq.stage = .energised) (hheld : r.seq.held = .release) (hrest : r.chan.speed.natAbs ≤ band) :
      StageMove band x r .releasing
  | opens {st : Status} (hstage : r.seq.stage = .releasing) (hx : x = some st) (hopen : st.brakeOpen = true) :
      StageMove band x r .released
  | applies (hstage : r.seq.stage = .released) (hheld : r.seq.held = .apply) (hset : r.coup.prevSet = 0)
      (hrest : r.chan.speed.natAbs ≤ band) : StageMove band x r .applying
  | disables {st : Status} (hstage : r.seq.stage = .applying) (hx : x = some st) (hshut : st.brakeOpen = false)
      (henabled : st.enabled = true) : StageMove band x r .disabling

theorem stageTest_moves (band : Nat) (st : Status) (r : Roller) : StageMove band (some st) r (stageTest st r.seq).1.stage := by
  have waits (h : r.seq.stage = .safe ∨ r.seq.stage = .energised ∨ r.seq.stage = .released) :
      StageMove band (some st) r (stageTest st r.seq).1.stage := by
    rw [stageTest_waits h]
    exact .stays
  cases hst : r.seq.stage with
  | safe => exact waits (.inl hst)
  | energised => exact waits (.inr (.inl hst))
  | released => exact waits (.inr (.inr hst))
  | enabling =>
    cases hcommanded : r.seq.commanded with
    | false =>
      obtain ⟨n, c, hcount⟩ := countReady_onlyCounts st r.seq
      rw [stageTest_counting hst hcommanded, hcount]
      exact .stays
    | true =>
      rw [stageTest_commanded hst hcommanded]
      split
      · next h => exact .energises hst hcommanded rfl h
      · exact .stays
  | releasing =>
    rw [stageTest_releasing hst]
    split
    · next h => exact .opens hst rfl h
    · exact .stays
  | applying =>
    rw [stageTest_applying hst]
    split
    · next h => exact .disables hst rfl h.1 h.2
    · exact .stays
  | disabling =>
    rw [stageTest_disabling hst]
    split
    · exact .stays
    · exact .forced

theorem testHeld_moves (band : Nat) (x : Option Status) (r : Roller) : StageMove band x r (testHeld band r).seq.stage := by
  rw [testHeld_eq]
  split
  · next h =>
    obtain ⟨hst, hheld, hrest⟩ := h
    exact .releases hst hheld hrest
  · split
    · next h =>
      obtain ⟨hst, hheld, hset, hrest⟩ := h
      exact .applies hst hheld hset hrest
    · exact .stays

/-- A held direction is tested only in a stage that the sample has left as it was: one work makes one move (06 R98). -/
theorem sampleStep_testHeld_moves (band : Nat) (st : Status) (r : Roller) :
    StageMove band (some st) r (testHeld band (sampleStep st r).1).seq.stage := by
  by_cases hack : ackOk r.seq.stage st = true
  · rw [sampleStep_passes hack]
    rcases stageTest_held st r.seq with hheld | ⟨n, c, hcounted⟩
    · rw [testHeld_nothingHeld band hheld]
      exact stageTest_moves band st r
    · have hsame : (testHeld band { r with seq := (stageTest st r.seq).1 }).seq.stage = (testHeld band r).seq.stage := by
        rw [hcounted, testHeld_eq, testHeld_eq]
        simp only
        repeat' split
        all_goals rfl
      rw [hsame]
      exact testHeld_moves band _ r
  · rw [sampleStep_fails hack, testHeld_nothingHeld band rfl]
    exact .forced

/-- Every stage work makes one move of the sequence (06 R98). -/
theorem stageWork_moves (timeout band k : Nat) (x : Option Status) (r : Roller) :
    StageMove band x r (stageWork timeout band k x r).1.seq.stage := by
  have finishes {a : Roller × Bool × Bool} (h : StageMove band x r (testHeld band a.1).seq.stage) :
      StageMove band x r (heldAndTimer timeout band k a).1.seq.stage := by
    rcases heldAndTimer_stage timeout band k a with hkept | hsafe
    · rwa [hkept]
    · rw [hsafe]
      exact .forced
  cases x with
  | none =>
    rw [stageWork_stale]
    exact finishes (testHeld_moves band none r)
  | some st =>
    rw [stageWork_fresh]
    exact finishes (sampleStep_testHeld_moves band st r)

/-- Settles O34: the moves as one relation (`stageWork_moves`), each stage's own test by its equation, and the held directions and the timer
as they follow the sample. -/
theorem stageWorkFollowsOrder : Obligations.StageWorkFollowsOrder := by
  have tested {x : Status} {r : Roller} {q : Sequence} {moved : Bool} (hack : ackOk r.seq.stage x = true)
      (h : stageTest x r.seq = (q, moved)) : sampleStep x r = ({ r with seq := q }, false, moved) := by
    rw [sampleStep_passes hack, h]
  refine ⟨fun x r => ?ack, fun timeout band k x r => ?moves, fun x r hack => ?acknowledged, fun band r => ?held,
    fun x r hst hcommanded hshut hfault => ?counted, fun timeout band k x r => ?timed⟩
  case ack =>
    intro ok
    have hok : ackOk r.seq.stage x = true ↔ ok := by
      simp only [ok]
      cases r.seq.stage <;> simp [ackOk]
    exact ⟨hok, fun hno => sampleStep_fails fun hack => hno (hok.mp hack)⟩
  case moves =>
    intro q
    have hmove : StageMove band x r q := stageWork_moves timeout band k x r
    clear_value q
    cases hmove with
    | stays => exact ⟨id, .inl, .inl, .inl, .inl, .inl⟩
    | forced => exact ⟨nofun, nofun, nofun, nofun, nofun, nofun⟩
    | energises hst hcommanded hx henabled => exact ⟨nofun, fun _ => .inr ⟨hst, hcommanded, _, hx, henabled⟩, nofun, nofun, nofun, nofun⟩
    | releases hst hheld hrest => exact ⟨nofun, nofun, fun _ => .inr ⟨hst, hheld, hrest⟩, nofun, nofun, nofun⟩
    | opens hst hx hopen => exact ⟨nofun, nofun, nofun, fun _ => .inr ⟨hst, _, hx, hopen⟩, nofun, nofun⟩
    | applies hst hheld hset hrest => exact ⟨nofun, nofun, nofun, nofun, fun _ => .inr ⟨hst, hheld, hset, hrest⟩, nofun⟩
    | disables hst hx hshut henabled => exact ⟨nofun, nofun, nofun, nofun, nofun, fun _ => .inr ⟨hst, _, hx, hshut, henabled⟩⟩
  case acknowledged =>
    refine ⟨fun hst hcommanded => ⟨fun h => ?_, fun h => ?_⟩, fun hst => ⟨fun h => ?_, fun h => ?_⟩, fun hst => ⟨fun h => ?_, fun h => ?_⟩,
      fun hst => ⟨fun h => ?_, fun h => ?_⟩, fun hst => tested hack (stageTest_waits hst)⟩
    · exact tested hack (by rw [stageTest_commanded hst hcommanded, if_pos h]; rfl)
    · exact tested hack (by rw [stageTest_commanded hst hcommanded, if_neg (by simp [h])])
    · exact tested hack (by rw [stageTest_releasing hst, if_pos h]; rfl)
    · exact tested hack (by rw [stageTest_releasing hst, if_neg (by simp [h])])
    · have henabled : x.enabled = true := by rwa [hst] at hack
      exact tested hack (by rw [stageTest_applying hst, if_pos ⟨h, henabled⟩]; rfl)
    · exact tested hack (by rw [stageTest_applying hst, if_neg (by simp [h])])
    · exact tested hack (by rw [stageTest_disabling hst, if_neg (by simp [h])]; rfl)
    · exact tested hack (by rw [stageTest_disabling hst, if_pos h])
  case held =>
    intro enters release apply
    refine ⟨fun h => ?_, fun h => ?_, fun hrelease happly => ?_⟩
    · exact (testHeld_eq band r).trans (if_pos h)
    · have hno : ¬ release := fun hr => absurd (hr.1.symm.trans h.1) nofun
      exact (testHeld_eq band r).trans ((if_neg hno).trans (if_pos h))
    · exact (testHeld_eq band r).trans ((if_neg hrelease).trans (if_neg happly))
  case counted =>
    have hack : ackOk r.seq.stage x = true := by rw [hst, ackOk, hshut]; rfl
    exact ⟨fun hready => tested hack (by rw [stageTest_counting hst hcommanded, countReady_ready hready hfault hcommanded]),
      fun hready => tested hack (by rw [stageTest_counting hst hcommanded, countReady_notReady hready])⟩
  case timed =>
    cases x with
    | none =>
      rw [stageWork_stale]
      exact ⟨heldAndTimer_noTimer, fun _ => heldAndTimer_timer⟩
    | some st =>
      rw [stageWork_fresh]
      exact ⟨heldAndTimer_noTimer, fun _ => heldAndTimer_timer⟩

end Sys2Proof.Machine
end

section
/-! SUPPORT. A group's own tests within its step (07 R114): the settle timer (R125), the completion of a stop (R123), the end of a wind-down
(R124), the tests of ENGAGING (R117) and the end of a disengage (R121); and the expiry of a stage timer and a settle timer (06 R108; 07
R125). -/

namespace Sys2Proof

/-- Two ways to replace each of the four are one where they agree at every index. -/
theorem Quad.mapIdx_congr {α β : Type} {f h : Fin 4 → α → β} {q : Quad α} (hfh : ∀ i, f i (q.get i) = h i (q.get i)) :
    q.mapIdx f = q.mapIdx h := Quad.ext_get fun i => by rw [Quad.get_mapIdx, Quad.get_mapIdx, hfh i]

/-- Replacing each of the four by itself changes nothing. -/
theorem Quad.mapIdx_kept {α : Type} {f : Fin 4 → α → α} {q : Quad α} (hf : ∀ i, f i (q.get i) = q.get i) : q.mapIdx f = q :=
  Quad.ext_get fun i => by rw [Quad.get_mapIdx, hf i]

end Sys2Proof

namespace Sys2Proof.Machine

/-! ### Members -/

theorem hasMembers_iff (t : Tables) (g : Fin 4) : hasMembers t g = true ↔ ∃ i, isMember t g i = true := four_any _

theorem isMember_iff_entry (t : Tables) (g i : Fin 4) : isMember t g i = true ↔ (t.rollers.get i).group = some g.val := beq_iff_eq

/-- The largest over some rollers is a bound that one of them meets. -/
theorem maxOver_greatest (f : Fin 4 → Nat) {l : List (Fin 4)} {i : Fin 4} (h : i ∈ l) :
    (∀ j ∈ l, f j ≤ maxOver f l) ∧ ∃ j ∈ l, maxOver f l = f j := by
  cases l with
  | nil => cases h
  | cons a l =>
    have hmax : ((a :: l).map f).max? = some (maxOver f (a :: l)) := by
      rw [List.map_cons, List.max?_cons', List.foldl_map, maxOver, List.foldl_cons, Nat.zero_max]
    obtain ⟨hmem, hle⟩ := List.max?_eq_some_iff.mp hmax
    obtain ⟨j, hj, heq⟩ := List.mem_map.mp hmem
    exact ⟨fun j hj => hle _ (List.mem_map_of_mem hj), j, hj, heq.symm⟩

/-- The settle limit is the largest stage_timeout among the members (07 R125). -/
theorem settleLimit_greatest {t : Tables} {g : Fin 4} (h : hasMembers t g = true) :
    (∀ i, isMember t g i = true → (t.rollers.get i).stageTimeout ≤ settleLimit t g)
      ∧ ∃ i, isMember t g i = true ∧ settleLimit t g = (t.rollers.get i).stageTimeout := by
  have hmem (i : Fin 4) : i ∈ members t g ↔ isMember t g i = true := by rw [mem_members, isMember_iff_entry]
  obtain ⟨i, hi⟩ := (hasMembers_iff t g).mp h
  obtain ⟨hle, j, hj, heq⟩ := maxOver_greatest (fun i => (t.rollers.get i).stageTimeout) ((hmem i).mpr hi)
  exact ⟨fun i hi => hle i ((hmem i).mpr hi), j, (hmem j).mp hj, heq⟩

theorem allMembers_onMembers (s : State) (g : Fin 4) (f : Roller → Roller) (p : Roller → Bool) :
    allMembers (s.onMembers g f) g p = allMembers s g fun r => p (f r) := by
  rw [Bool.eq_iff_iff, allMembers_iff, allMembers_iff]
  refine forall_congr' fun i => imp_congr_right fun hm => ?_
  rw [State.onMembers_rollers, Quad.get_mapIdx]
  exact iff_of_eq (congrArg (p · = true) (if_pos hm))

theorem anyMember_onMembers (s : State) (g : Fin 4) (f : Roller → Roller) (p : Roller → Bool) :
    anyMember (s.onMembers g f) g p = anyMember s g fun r => p (f r) := by
  rw [Bool.eq_iff_iff, anyMember_iff, anyMember_iff]
  refine exists_congr fun i => and_congr_right fun hm => ?_
  rw [State.onMembers_rollers, Quad.get_mapIdx]
  exact iff_of_eq (congrArg (p · = true) (if_pos hm))

theorem onMembers_congr {s : State} {g : Fin 4} {f h : Roller → Roller}
    (hfh : ∀ i, isMember s.tables.active g i = true → f (s.rollers.get i) = h (s.rollers.get i)) : s.onMembers g f = s.onMembers g h := by
  have hrollers : (s.onMembers g f).rollers = (s.onMembers g h).rollers := Quad.mapIdx_congr fun i => ite_congr rfl (hfh i) fun _ => rfl
  exact congrArg (fun q => { s with rollers := q }) hrollers

theorem onMembers_kept {s : State} {g : Fin 4} {f : Roller → Roller}
    (hf : ∀ i, isMember s.tables.active g i = true → f (s.rollers.get i) = s.rollers.get i) : s.onMembers g f = s := by
  have hrollers : (s.onMembers g f).rollers = s.rollers := by
    rw [State.onMembers_rollers]
    refine Quad.mapIdx_kept fun i => ?_
    split
    · next hm => exact hf i hm
    · rfl
  exact congrArg (fun q => { s with rollers := q }) hrollers

/-- A change of the members in one stage, member by member. -/
theorem onMembers_atStage (s : State) (g : Fin 4) (st : Stage) (f : Roller → Roller) :
    s.onMembers g (fun r => if r.seq.stage = st then f r else r) = { s with
      rollers := s.rollers.mapIdx fun i r => if isMember s.tables.active g i && decide (r.seq.stage = st) then f r else r } := by
  have hrollers : (s.onMembers g fun r => if r.seq.stage = st then f r else r).rollers
      = s.rollers.mapIdx fun i r => if isMember s.tables.active g i && decide (r.seq.stage = st) then f r else r := by
    rw [State.onMembers_rollers]
    refine Quad.mapIdx_congr fun i => ?_
    simp only [Bool.and_eq_true, decide_eq_true_eq, ite_and]
  exact congrArg (fun q => { s with rollers := q }) hrollers

theorem allSafe_iff (s : State) (g : Fin 4) :
    allMembers s g isSafe = true ↔ ∀ i, isMember s.tables.active g i = true → (s.rollers.get i).seq.stage = .safe := by
  simp only [allMembers_iff, isSafe, decide_eq_true_eq]

theorem anyReleased_iff (s : State) (g : Fin 4) :
    anyMember s g isReleased = true ↔ ∃ i, isMember s.tables.active g i = true ∧ (s.rollers.get i).seq.stage = .released := by
  simp only [anyMember_iff, isReleased, decide_eq_true_eq]

theorem noneReleased_of_allSafe {s : State} {g : Fin 4} (h : allMembers s g isSafe = true) : anyMember s g isReleased = false := by
  rw [← Bool.not_eq_true, anyReleased_iff]
  rintro ⟨i, hm, hreleased⟩
  exact absurd (((allSafe_iff s g).mp h i hm).symm.trans hreleased) nofun

theorem allPublished_iff (s : State) (g : Fin 4) (st : Stage) :
    allMembers s g (fun r => decide (r.published = st)) = true
      ↔ ∀ i, isMember s.tables.active g i = true → (s.rollers.get i).published = st := by
  simp only [allMembers_iff, decide_eq_true_eq]

/-- A stop is complete at v_g 0 with every RELEASED member within the band (07 R123). -/
theorem stopComplete_iff (g : Fin 4) (s : State) :
    stopComplete g s = true ↔ (s.groups.get g).speed = 0 ∧ ∀ i, isMember s.tables.active g i = true →
      (s.rollers.get i).seq.stage = .released → (s.rollers.get i).chan.speed.natAbs ≤ s.tables.active.cell.standstill := by
  unfold stopComplete
  simp only [Bool.and_eq_true, allMembers_iff, Bool.or_eq_true, Bool.not_eq_true', isReleased, decide_eq_false_iff_not, ← imp_iff_not_or,
    atRest, decide_eq_true_eq]
  rfl

/-! ### Directions -/

/-- A release direction moves an ENERGISED roller to RELEASING within the band, and is held otherwise (06 R102). -/
theorem releaseDirection_eq (band : Nat) : releaseDirection band = fun r =>
    if r.seq.stage = .energised then { r with seq :=
      if r.chan.speed.natAbs ≤ band then enterTimed .releasing else { r.seq with held := .release } } else r := by
  funext r
  unfold releaseDirection
  split
  · next hst =>
    rw [testHeld_eq, if_pos hst]
    by_cases hrest : r.chan.speed.natAbs ≤ band
    · simp [hst, hrest]
    · simp [hst, hrest]
  · next hst => exact (if_neg hst).symm

/-- What an apply direction makes of a RELEASED roller within the band (06 R104). -/
def Roller.appliedAtRest (r : Roller) : Roller :=
  { r with seq := if r.coup.prevSet = 0 then enterTimed .applying else { r.seq with held := .apply } }

theorem applyDirection_atRest {band : Nat} {r : Roller} (hrest : r.seq.stage = .released → r.chan.speed.natAbs ≤ band) :
    applyDirection band r = if r.seq.stage = .released then r.appliedAtRest else r := by
  rw [applyDirection_eq]
  split
  · next hst =>
    simp only [if_pos hst, hrest hst, and_true, Roller.appliedAtRest]
    split <;> rfl
  · next hst => exact if_neg hst

/-- The apply directions of a complete stop, where every RELEASED member is within the band (07 R123). -/
def State.applyAtRest (s : State) (g : Fin 4) : State :=
  s.onMembers g fun r => if r.seq.stage = .released then r.appliedAtRest else r

theorem onMembers_applyDirection {g : Fin 4} {s : State} (h : stopComplete g s = true) :
    s.onMembers g (applyDirection (bandOf s)) = s.applyAtRest g := by
  obtain ⟨-, hrest⟩ := (stopComplete_iff g s).mp h
  exact onMembers_congr fun i hm => applyDirection_atRest (hrest i hm)

/-- After the apply directions of a complete stop the members still RELEASED are those with a setpoint left (06 R104). -/
theorem anyReleased_applyAtRest (s : State) (g : Fin 4) :
    anyMember (s.applyAtRest g) g isReleased = anyMember s g fun r => isReleased r && decide (r.coup.prevSet ≠ 0) := by
  rw [State.applyAtRest, anyMember_onMembers]
  congr 1
  funext r
  by_cases hst : r.seq.stage = .released
  · by_cases hset : r.coup.prevSet = 0
    · simp [hst, hset, isReleased, Roller.appliedAtRest, enterTimed]
    · simp [hst, hset, isReleased, Roller.appliedAtRest]
  · simp [hst, isReleased]

/-- The apply directions of a complete stop make no roller SAFE, and reach none that is. -/
theorem allSafe_applyAtRest (s : State) (g : Fin 4) : allMembers (s.applyAtRest g) g isSafe = allMembers s g isSafe := by
  rw [State.applyAtRest, allMembers_onMembers]
  congr 1
  funext r
  by_cases hst : r.seq.stage = .released
  · by_cases hset : r.coup.prevSet = 0
    · simp [hst, hset, isSafe, Roller.appliedAtRest, enterTimed]
    · simp [hst, hset, isSafe, Roller.appliedAtRest]
  · simp [hst]

theorem applyAtRest_safe {s : State} {g : Fin 4} (h : allMembers s g isSafe = true) : s.applyAtRest g = s :=
  onMembers_kept fun i hm => if_neg (by rw [(allSafe_iff s g).mp h i hm]; nofun)

/-! ### The settle timer -/

/-- A group that has entered FAULTED, out of a wind-down or a stop (07 R124, R125). -/
def Group.standFaulted (x : Group) : Group :=
  { x with state := .faulted, cause := .none, windDown := false, settle := none, speed := 0, residue := 0 }

theorem enterFaulted_eq (g : Fin 4) (s : State) :
    enterFaulted g s = { s with groups := s.groups.set g (s.groups.get g).standFaulted } := rfl

/-- Expiry of a settle timer (07 R125). -/
theorem settleExpiry_eq (g : Fin 4) (s : State) :
    settleExpiry g s = { s with
      rollers := s.rollers.mapIdx fun i r => if isMember s.tables.active g i then { r with seq := Sequence.safe } else r
      groups := s.groups.set g { (s.groups.get g).standFaulted with
        flags := { (s.groups.get g).flags with settleTimeout := true } } } := by
  simp [settleExpiry, forceMembers, forceSafe, enterFaulted_eq, State.onGroup, State.onMembers, Group.standFaulted]

theorem settleExpiry_state (g : Fin 4) (s : State) : ((settleExpiry g s).groups.get g).state = .faulted := by
  rw [settleExpiry_eq, Quad.get_set_same]
  rfl

theorem stageExpires_running {i : Fin 4} {n : Nat} {s : State} (hactive : s.lpu.opState = .active)
    (hn : (s.rollers.get i).seq.timer = some n) : stageExpires i s = hardFaultEvent i (s.onRoller i timeOut) :=
  if_pos (by simp [inRun, hactive, hn])

theorem settleExpires_running {g : Fin 4} {n : Nat} {s : State} (hactive : s.lpu.opState = .active)
    (hst : (s.groups.get g).state = .stopping) (hn : (s.groups.get g).settle = some n) : settleExpires g s = settleExpiry g s :=
  if_pos (by simp [inRun, hactive, hst, hn])

/-- Settles O31: the two rows reach the stage timer's and the settle timer's expiry, each one equation. -/
theorem timersExpireToSafe : Obligations.TimersExpireToSafe := by
  refine ⟨fun s i n hactive hn => ?stage, fun s g n hactive hst hn => ?settle⟩
  case stage =>
    have hexec : exec (.stageTimerExpiry i) s = .next (hardFaultEvent i (s.onRoller i timeOut)) := by
      rw [← stageExpires_running hactive hn]
      rfl
    refine ⟨fun g hg => ?_, fun hnone => ?_⟩
    · rw [hexec, hardFaultEvent_some (s := s.onRoller i timeOut) hg]
      rfl
    · rw [hexec, hardFaultEvent_none (s := s.onRoller i timeOut) hnone]
      rfl
  case settle =>
    have hexec : exec (.settleTimerExpiry g) s = .next (settleExpiry g s) := by
      rw [← settleExpires_running hactive hst hn]
      rfl
    rw [hexec, settleExpiry_eq]
    rfl

section

variable {g : Fin 4} {k n : Nat} {s : State}

theorem settleAdvance_runs (h : min 65535 (n + k) < settleLimit s.tables.active g) :
    settleAdvance g k n s = s.onGroup g fun x => { x with settle := some (min 65535 (n + k)) } := if_neg (Nat.not_le.mpr h)

theorem settleAdvance_expires (h : settleLimit s.tables.active g ≤ min 65535 (n + k)) : settleAdvance g k n s = settleExpiry g s :=
  if_pos h

/-! ### The completion of a stop -/

/-- A stop that completes under REQUEST or TRACK_LOST ends in HOLD (07 R123). -/
theorem completeStop_holds (h : (s.groups.get g).cause ≠ .rollerFault) :
    completeStop g s = s.onGroup g fun x => { x with state := .hold, cause := .none, settle := none } := by
  unfold completeStop
  split
  · next hcause => exact absurd hcause h
  · rfl

/-- The group as a stop that completes under ROLLER_FAULT leaves it: the settle timer runs on, or starts at 0, while a member stays RELEASED
with its apply held (07 R123, R125). -/
def windingGroup (s : State) (g : Fin 4) : Group :=
  { s.groups.get g with
    windDown := true
    settle := if anyMember s g fun r => isReleased r && decide (r.coup.prevSet ≠ 0) then some ((s.groups.get g).settle.getD 0) else none }

/-- A stop that completes under ROLLER_FAULT: the wind-down begins with an apply direction to each RELEASED member (07 R123). -/
theorem completeStop_windsDown (hcause : (s.groups.get g).cause = .rollerFault) (hstop : stopComplete g s = true) :
    completeStop g s = (s.applyAtRest g).onGroup g fun _ => windingGroup s g := by
  have hbegins : completeStop g s = stopIfNoneReleased g ((s.onMembers g (applyDirection (bandOf s))).onGroup g fun x =>
      { x with windDown := true, settle := some (x.settle.getD 0) }) := by
    unfold completeStop
    rw [hcause]
    rfl
  have hany (f : Group → Group) : anyMember ((s.applyAtRest g).onGroup g f) g isReleased
      = anyMember s g fun r => isReleased r && decide (r.coup.prevSet ≠ 0) := anyReleased_applyAtRest s g
  rw [hbegins, onMembers_applyDirection hstop, stopIfNoneReleased, hany]
  unfold windingGroup
  split
  · rfl
  · simp [State.onGroup, State.applyAtRest]

/-! ### The test of a STOPPING group -/

theorem stopTests_other (h : (s.groups.get g).state ≠ .stopping) : stopTests g k s = s := if_neg h

theorem stopTests_windDown (hst : (s.groups.get g).state = .stopping) (hwind : (s.groups.get g).windDown = true) :
    stopTests g k s = settleWindDown g k s := (if_pos hst).trans (if_pos hwind)

theorem stopTests_completes (hst : (s.groups.get g).state = .stopping) (hwind : (s.groups.get g).windDown = false)
    (hstop : stopComplete g s = true) : stopTests g k s = completeStop g s := by
  rw [stopTests, if_pos hst, hwind, if_neg Bool.false_ne_true, if_pos hstop]

theorem stopTests_waits (hst : (s.groups.get g).state = .stopping) (hwind : (s.groups.get g).windDown = false)
    (hstop : ¬ stopComplete g s = true) : stopTests g k s = settleStep g k s := by
  rw [stopTests, if_pos hst, hwind, if_neg Bool.false_ne_true, if_neg hstop]

theorem settleWindDown_stopped (h : (s.groups.get g).settle = none) : settleWindDown g k s = s := by
  rw [settleWindDown, h]

theorem settleWindDown_stops (h : anyMember s g isReleased = false) :
    settleWindDown g k s = s.onGroup g fun x => { x with settle := none } := by
  unfold settleWindDown
  split
  · rw [h, if_neg Bool.false_ne_true]
  · next hnone =>
    have hkept : { s.groups.get g with settle := none } = s.groups.get g := by rw [← hnone]
    rw [State.onGroup, hkept, Quad.set_get]

theorem settleWindDown_advances (hn : (s.groups.get g).settle = some n) (h : anyMember s g isReleased = true) :
    settleWindDown g k s = settleAdvance g k n s := by
  rw [settleWindDown, hn]
  exact if_pos h

theorem settleStep_starts (h : (s.groups.get g).settle = none) : settleStep g k s
    = if (s.groups.get g).speed = 0 then s.onGroup g fun x => { x with settle := some 0 } else s := by
  rw [settleStep, h]

theorem settleStep_advances (hn : (s.groups.get g).settle = some n) : settleStep g k s = settleAdvance g k n s := by
  rw [settleStep, hn]

/-! ### The tests after the stop's -/

/-- The tests of a step after the stop's own, in their order (07 R114). -/
def laterTests (g : Fin 4) (s : State) : State := disengagingTest g (engagingTests g (windDownTest g s))

theorem groupTests_eq (h : hasMembers s.tables.active g = true) : groupTests g k s = laterTests g (stopTests g k s) := if_pos h

/-- A group in none of ENGAGING, DISENGAGING and an ended wind-down passes the later tests unchanged (07 R114). -/
theorem laterTests_idle {x : Group} (hx : s.groups.get g = x)
    (hwind : x.state = .stopping → x.windDown = true → ¬ allMembers s g isSafe = true) (hengaging : x.state ≠ .engaging)
    (hdisengaging : x.state ≠ .disengaging) : laterTests g s = s := by
  subst hx
  rw [laterTests, windDownTest, if_neg fun h => hwind h.1 h.2.1 h.2.2, engagingTests, if_neg hengaging, disengagingTest,
    if_neg fun h => hdisengaging h.1]

/-- A STOPPING group whose wind-down has not ended passes the later tests unchanged (07 R114). -/
theorem laterTests_stopping {x : Group} (hx : s.groups.get g = x) (hst : x.state = .stopping)
    (hwind : x.windDown = true → ¬ allMembers s g isSafe = true) : laterTests g s = s :=
  laterTests_idle hx (fun _ => hwind) (by rw [hst]; nofun) (by rw [hst]; nofun)

/-- A group that is neither STOPPING nor on its way passes the later tests unchanged (07 R114). -/
theorem laterTests_resting {x : Group} (hx : s.groups.get g = x)
    (hst : x.state = .idle ∨ x.state = .hold ∨ x.state = .follow ∨ x.state = .track ∨ x.state = .faulted) : laterTests g s = s := by
  rcases hst with h | h | h | h | h <;> exact laterTests_idle hx (by rw [h]; nofun) (by rw [h]; nofun) (by rw [h]; nofun)

/-- A wind-down with every member SAFE ends in FAULTED (07 R124). -/
theorem laterTests_windDown {x : Group} (hx : s.groups.get g = x) (hst : x.state = .stopping) (hwind : x.windDown = true)
    (hsafe : allMembers s g isSafe = true) : laterTests g s = enterFaulted g s := by
  subst hx
  have hends : windDownTest g s = enterFaulted g s := if_pos ⟨hst, hwind, hsafe⟩
  have hfaulted : ((enterFaulted g s).groups.get g).state = .faulted := by simp [enterFaulted]
  rw [laterTests, hends, engagingTests, if_neg (by rw [hfaulted]; nofun), disengagingTest, if_neg (by rw [hfaulted]; nofun)]

/-- A settle timer that advances ends the tests of the step, whether it expires or not (07 R125). -/
theorem laterTests_settleAdvance (hst : (s.groups.get g).state = .stopping)
    (hwind : (s.groups.get g).windDown = true → ¬ allMembers s g isSafe = true) :
    laterTests g (settleAdvance g k n s) = settleAdvance g k n s := by
  rcases Nat.lt_or_ge (min 65535 (n + k)) (settleLimit s.tables.active g) with hruns | hexpires
  · rw [settleAdvance_runs hruns]
    exact laterTests_stopping (Quad.get_set_same _ _ _) hst hwind
  · rw [settleAdvance_expires hexpires]
    exact laterTests_resting rfl (.inr (.inr (.inr (.inr (settleExpiry_state g s)))))

/-- A stop that completes under ROLLER_FAULT with every member SAFE ends in FAULTED within the same tests (07 R123, R124). -/
theorem laterTests_completeStop_safe (hst : (s.groups.get g).state = .stopping) (hcause : (s.groups.get g).cause = .rollerFault)
    (hstop : stopComplete g s = true) (hsafe : allMembers s g isSafe = true) : laterTests g (completeStop g s) = enterFaulted g s := by
  have hwinding : completeStop g s = s.onGroup g fun _ => windingGroup s g := by
    rw [completeStop_windsDown hcause hstop, applyAtRest_safe hsafe]
  rw [hwinding, laterTests_windDown (s := s.onGroup g _) (Quad.get_set_same _ _ _) hst rfl hsafe]
  simp [enterFaulted, State.onGroup, windingGroup]

/-- A stop that completes under ROLLER_FAULT with a member not SAFE begins its wind-down and stays STOPPING (07 R123). -/
theorem laterTests_completeStop_unsafe (hst : (s.groups.get g).state = .stopping) (hcause : (s.groups.get g).cause = .rollerFault)
    (hstop : stopComplete g s = true) (hunsafe : ¬ allMembers s g isSafe = true) :
    laterTests g (completeStop g s) = (s.applyAtRest g).onGroup g fun _ => windingGroup s g := by
  rw [completeStop_windsDown hcause hstop]
  refine laterTests_stopping (Quad.get_set_same _ _ _) hst fun _ hsafe => hunsafe ?_
  rw [← allSafe_applyAtRest s g]
  exact hsafe

/-- A wind-down with every member SAFE stops its settle timer and ends in FAULTED (07 R124, R125). -/
theorem laterTests_settleWindDown_safe (hst : (s.groups.get g).state = .stopping) (hwind : (s.groups.get g).windDown = true)
    (hsafe : allMembers s g isSafe = true) : laterTests g (settleWindDown g k s) = enterFaulted g s := by
  rw [settleWindDown_stops (noneReleased_of_allSafe hsafe),
    laterTests_windDown (s := s.onGroup g _) (Quad.get_set_same _ _ _) hst hwind hsafe]
  simp [enterFaulted, State.onGroup]

/-- The tests of an ENGAGING group are those of R117. -/
theorem laterTests_engaging (hst : (s.groups.get g).state = .engaging) : laterTests g s =
    if allMembers s g (fun r => decide (r.published = .energised)) = true then s.onMembers g (releaseDirection (bandOf s))
    else if allMembers s g (fun r => decide (r.published = .released)) = true then
      s.onGroup g fun x => { x with state := .hold, speed := 0, residue := 0 }
    else s := by
  have hwind : windDownTest g s = s := if_neg (by simp [hst])
  have hlast (u : State) (hu : (u.groups.get g).state ≠ .disengaging) : disengagingTest g u = u := if_neg fun h => hu h.1
  rw [laterTests, hwind, engagingTests, if_pos hst]
  split
  · exact hlast _ (by simp [hst])
  · split
    · exact hlast _ (by simp)
    · exact hlast _ (by simp [hst])

/-- The test of a DISENGAGING group is that of R121. -/
theorem laterTests_disengaging (hst : (s.groups.get g).state = .disengaging) : laterTests g s =
    if allMembers s g isSafe = true then s.onGroup g fun x => { x with state := .idle, speed := 0, residue := 0 } else s := by
  rw [laterTests, windDownTest, if_neg (by simp [hst]), engagingTests, if_neg (by simp [hst]), disengagingTest]
  simp only [hst, true_and]

/-- A member is in one published stage alone. -/
theorem published_unique {st st' : Stage} (hmembers : hasMembers s.tables.active g = true)
    (h : allMembers s g (fun r => decide (r.published = st)) = true) (h' : allMembers s g (fun r => decide (r.published = st')) = true) :
    st = st' := by
  obtain ⟨i, hm⟩ := (hasMembers_iff _ g).mp hmembers
  exact ((allPublished_iff s g st).mp h i hm).symm.trans ((allPublished_iff s g st').mp h' i hm)

end

/-- Settles O44: the stop's test by whether the stop is complete and wound down, then the later tests by the state it leaves. -/
theorem groupTestsFollowTheirTable : Obligations.GroupTestsFollowTheirTable := by
  intro s g k x t band put faulted allSafe someUnsafe atBand tooFast
  have hunsafe (h : someUnsafe) : ¬ allMembers s g isSafe = true := by
    obtain ⟨i, hm, hst⟩ := h
    exact fun hall => hst ((allSafe_iff s g).mp hall i hm)
  refine ⟨⟨hasMembers_iff _ g, isMember_iff_entry _ g⟩, fun hnone => if_neg (by rw [hnone]; nofun), fun hmembers => ?_⟩
  have ht : t = laterTests g (stopTests g k s) := groupTests_eq hmembers
  have hother (hst : x.state ≠ .stopping) : t = laterTests g s := ht.trans (by rw [stopTests_other hst])
  have hadvances {n : Nat} (hst : x.state = .stopping) (hadvance : stopTests g k s = settleAdvance g k n s)
      (hwind : x.windDown = true → ¬ allMembers s g isSafe = true) : t = settleAdvance g k n s :=
    ht.trans (by rw [hadvance, laterTests_settleAdvance hst hwind])
  refine ⟨settleLimit_greatest hmembers, ht, fun hst => ?still, fun hst hwind hspeed hrest => ?completes, fun hst hwind hmoving => ?waits,
    fun hst hwind hsafe => ?woundDown, fun hst hwind hun => ?winding, fun hst hpub => ?released, fun hst hpub => ?held,
    fun hst hno hno' => ?engaging, fun hst => ?disengaging⟩
  case still =>
    have hne : x.state ≠ .stopping := by rcases hst with h | h | h | h | h <;> rw [h] <;> nofun
    rw [hother hne, laterTests_resting rfl hst]
  case completes =>
    have hstop : stopComplete g s = true := (stopComplete_iff g s).mpr ⟨hspeed, hrest⟩
    rw [ht, stopTests_completes hst hwind hstop]
    refine ⟨fun hcause => ?_, fun hcause => ?_⟩
    · rw [completeStop_holds hcause]
      exact laterTests_resting (Quad.get_set_same _ _ _) (.inr (.inl rfl))
    · refine ⟨fun hsafe => ?_, fun hun => ?_⟩
      · rw [laterTests_completeStop_safe hst hcause hstop ((allSafe_iff s g).mpr hsafe)]
        rfl
      · rw [laterTests_completeStop_unsafe hst hcause hstop (hunsafe hun), State.applyAtRest, onMembers_atStage]
        rfl
  case waits =>
    have hstop : ¬ stopComplete g s = true := by
      intro hcomplete
      obtain ⟨hspeed, hrest⟩ := (stopComplete_iff g s).mp hcomplete
      rcases hmoving with hne | ⟨i, hm, hreleased, hfast⟩
      · exact hne hspeed
      · exact absurd (hrest i hm hreleased) (Nat.not_le.mpr hfast)
    have htests := stopTests_waits (k := k) hst hwind hstop
    have hnotWinding (h : x.windDown = true) : ¬ allMembers s g isSafe = true := absurd (hwind.symm.trans h) nofun
    refine ⟨fun hnone => ?_, fun n hn => ?_⟩
    · rw [ht, htests, settleStep_starts hnone]
      split
      · exact laterTests_stopping (Quad.get_set_same _ _ _) hst hnotWinding
      · exact laterTests_stopping rfl hst hnotWinding
    · have hset := hadvances hst (htests.trans (settleStep_advances hn)) hnotWinding
      exact ⟨fun h => hset.trans (settleAdvance_runs h), fun h => hset.trans (settleAdvance_expires h)⟩
  case woundDown =>
    rw [ht, stopTests_windDown hst hwind, laterTests_settleWindDown_safe hst hwind ((allSafe_iff s g).mpr hsafe)]
    rfl
  case winding =>
    have htests := stopTests_windDown (k := k) hst hwind
    refine ⟨fun hnone => ?_, fun hnone => ?_, fun n hn hany => ?_⟩
    · rw [ht, htests, settleWindDown_stopped hnone]
      exact laterTests_stopping rfl hst fun _ => hunsafe hun
    · rw [ht, htests, settleWindDown_stops hnone]
      exact laterTests_stopping (Quad.get_set_same _ _ _) hst fun _ => hunsafe hun
    · have hset := hadvances hst (htests.trans (settleWindDown_advances hn hany)) fun _ => hunsafe hun
      exact ⟨fun h => hset.trans (settleAdvance_runs h), fun h => hset.trans (settleAdvance_expires h)⟩
  case released =>
    rw [hother (by rw [hst]; nofun), laterTests_engaging hst, if_pos ((allPublished_iff s g _).mpr hpub), releaseDirection_eq,
      onMembers_atStage]
    rfl
  case held =>
    have hall := (allPublished_iff s g _).mpr hpub
    rw [hother (by rw [hst]; nofun), laterTests_engaging hst, if_neg fun h => ?_, if_pos hall]
    · rfl
    · exact absurd (published_unique hmembers h hall) nofun
  case engaging =>
    have hnot {st : Stage} (h : ∃ i, isMember s.tables.active g i = true ∧ (s.rollers.get i).published ≠ st) :
        ¬ allMembers s g (fun r => decide (r.published = st)) = true := by
      obtain ⟨i, hm, hne⟩ := h
      exact fun hall => hne ((allPublished_iff s g st).mp hall i hm)
    rw [hother (by rw [hst]; nofun), laterTests_engaging hst, if_neg (hnot hno), if_neg (hnot hno')]
  case disengaging =>
    rw [hother (by rw [hst]; nofun), laterTests_disengaging hst]
    exact ⟨fun hsafe => if_pos ((allSafe_iff s g).mpr hsafe), fun hun => if_neg (hunsafe hun)⟩

end Sys2Proof.Machine
end

section
/-! SUPPORT. A member's hard fault event at its group (07 R126): one equation per kind of group state, and what it leaves alone. -/

namespace Sys2Proof.Machine

/-! ### A group and its members -/

theorem State.onGroup_onGroup (s : State) (g : Fin 4) (f h : Group → Group) :
    (s.onGroup g f).onGroup g h = s.onGroup g fun x => h (f x) := by
  simp [State.onGroup]

theorem State.onMembers_id (s : State) (g : Fin 4) : s.onMembers g id = s := onMembers_kept fun _ _ => rfl

theorem State.onGroup_id (s : State) (g : Fin 4) : s.onGroup g id = s := onGroup_unchanged rfl

/-- Of rollers and groups, t differs from s at most in group g and in its members. -/
def ActsWithin (g : Fin 4) (s t : State) : Prop := ∃ f h, t = (s.onMembers g f).onGroup g h

theorem ActsWithin.refl (g : Fin 4) (s : State) : ActsWithin g s s := ⟨id, id, by rw [State.onMembers_id, State.onGroup_id]⟩

theorem onGroup_actsWithin (g : Fin 4) (s : State) (f : Group → Group) : ActsWithin g s (s.onGroup g f) :=
  ⟨id, f, by rw [State.onMembers_id]⟩

theorem ActsWithin.onGroup {g : Fin 4} {s t : State} (hacts : ActsWithin g s t) (k : Group → Group) : ActsWithin g s (t.onGroup g k) := by
  obtain ⟨f, h, rfl⟩ := hacts
  exact ⟨f, fun x => k (h x), State.onGroup_onGroup _ g h k⟩

theorem ActsWithin.otherGroups {g h : Fin 4} {s t : State} (hacts : ActsWithin g s t) (hne : h ≠ g) : t.groups.get h = s.groups.get h := by
  obtain ⟨f, k, rfl⟩ := hacts
  exact Quad.get_set_other _ _ _ _ hne

theorem ActsWithin.otherRollers {g i : Fin 4} {s t : State} (hacts : ActsWithin g s t) (hm : ¬ isMember s.tables.active g i = true) :
    t.rollers.get i = s.rollers.get i := by
  obtain ⟨f, k, rfl⟩ := hacts
  exact (onMembers_get s g i f).trans (if_neg hm)

/-! ### The hard fault event by the state of the group -/

section

variable {g : Fin 4} {s : State}

theorem faultIfNoneReleased_stays (h : anyMember s g isReleased = true) : faultIfNoneReleased g s = s := if_pos h

theorem faultIfNoneReleased_faults (h : anyMember s g isReleased = false) : faultIfNoneReleased g s = s.onGroup g Group.standFaulted :=
  if_neg (by rw [h]; nofun)

/-- A group that leaves HOLD, FOLLOW or TRACK for STOPPING under ROLLER_FAULT: v_g is kept (07 R126, 05 R86). -/
def Group.faultStopping (x : Group) : Group :=
  { x with state := .stopping, cause := .rollerFault, windDown := false, settle := none, residue := 0, blendPos := 0, dir := .none }

/-- A member without its reference (05 R86). -/
def Roller.unreferenced (r : Roller) : Roller := { r with coup := { r.coup with reference := none } }

theorem enterStopping_rollerFault (g : Fin 4) (s : State) :
    enterStopping .rollerFault g s = (s.onMembers g Roller.unreferenced).onGroup g Group.faultStopping :=
  enterStopping_eq .rollerFault g s

/-- The entry to STOPPING moves no stage, so the same members stand RELEASED after it. -/
theorem anyReleased_enterStopping (c : StopCause) (g : Fin 4) (s : State) :
    anyMember (enterStopping c g s) g isReleased = anyMember s g isReleased :=
  anyMember_onMembers s g Roller.unreferenced isReleased

theorem groupFault_standing (h : (s.groups.get g).state = .idle ∨ (s.groups.get g).state = .faulted) : groupFault g s = s := by
  unfold groupFault
  rcases h with h | h <;> rw [h]

theorem groupFault_underway (h : (s.groups.get g).state = .engaging ∨ (s.groups.get g).state = .disengaging) :
    groupFault g s = (s.onMembers g forceSafe).onGroup g Group.standFaulted := by
  unfold groupFault
  rcases h with h | h <;> rw [h] <;> rfl

/-- The group stays STOPPING while a member is RELEASED, and is FAULTED at once where none is (07 R126). -/
theorem groupFault_running
    (h : (s.groups.get g).state = .hold ∨ (s.groups.get g).state = .follow ∨ (s.groups.get g).state = .track) :
    groupFault g s = (s.onMembers g Roller.unreferenced).onGroup g fun x =>
      if anyMember s g isReleased = true then x.faultStopping else x.faultStopping.standFaulted := by
  have hstops : groupFault g s = faultIfNoneReleased g (enterStopping .rollerFault g s) := by
    unfold groupFault
    rcases h with h | h | h <;> rw [h]
  rw [hstops, faultIfNoneReleased, anyReleased_enterStopping, enterStopping_rollerFault]
  split
  · rfl
  · exact State.onGroup_onGroup _ g _ Group.standFaulted

theorem groupFault_stopping (h : (s.groups.get g).state = .stopping) (hwind : (s.groups.get g).windDown = false) :
    groupFault g s = faultIfNoneReleased g (s.onGroup g fun x => { x with cause := .rollerFault }) := by
  unfold groupFault
  rw [h]
  exact if_neg (by rw [hwind]; nofun)

theorem groupFault_windDown (h : (s.groups.get g).state = .stopping) (hwind : (s.groups.get g).windDown = true) :
    groupFault g s = windDownTest g s := by
  unfold groupFault
  rw [h]
  exact if_pos hwind

end

theorem windDownTest_actsWithin (g : Fin 4) (s : State) : ActsWithin g s (windDownTest g s) := by
  unfold windDownTest
  split
  · exact onGroup_actsWithin g s Group.standFaulted
  · exact .refl g s

theorem ActsWithin.faultIfNoneReleased {g : Fin 4} {s t : State} (h : ActsWithin g s t) : ActsWithin g s (faultIfNoneReleased g t) := by
  unfold Machine.faultIfNoneReleased
  split
  · exact h
  · exact h.onGroup Group.standFaulted

/-- The hard fault event reaches one group and its members (07 R126). -/
theorem groupFault_actsWithin (g : Fin 4) (s : State) : ActsWithin g s (groupFault g s) := by
  have hstops : ActsWithin g s (enterStopping .rollerFault g s) := ⟨_, _, enterStopping_rollerFault g s⟩
  unfold groupFault
  cases (s.groups.get g).state with
  | idle | faulted => exact .refl g s
  | engaging | disengaging => exact ⟨forceSafe, Group.standFaulted, rfl⟩
  | hold | follow | track => exact hstops.faultIfNoneReleased
  | stopping =>
    dsimp only
    split
    · exact windDownTest_actsWithin g s
    · exact (onGroup_actsWithin g s _).faultIfNoneReleased

/-- Settles O30: each state's equation read at the group and at a member; the rest of the state by `groupFault_actsWithin`. -/
theorem hardFaultActsByGroupState : Obligations.HardFaultActsByGroupState := by
  intro s g x t faulted member
  have hacts : ActsWithin g s t := groupFault_actsWithin g s
  refine ⟨groupFault_onlyMotion g s, fun h hne => hacts.otherGroups hne, fun i hm => hacts.otherRollers hm, groupFault_standing,
    fun hst => ?underway, fun hst => ?running,
    fun hst hwind => ?stopping, fun hst hwind => ?windDown, ?released⟩
  case underway =>
    have ht : t = (s.onMembers g forceSafe).onGroup g Group.standFaulted := groupFault_underway hst
    rw [ht]
    exact ⟨Quad.get_set_same _ _ _, fun i hm => (onMembers_get s g i forceSafe).trans (if_pos hm)⟩
  case running =>
    have ht : t = _ := groupFault_running hst
    rw [ht]
    refine ⟨fun i hm => (onMembers_get s g i _).trans (if_pos hm), fun hreleased => ?_, fun hnone => ?_⟩
    · exact (Quad.get_set_same _ _ _).trans (if_pos hreleased)
    · exact (Quad.get_set_same _ _ _).trans (if_neg (by rw [hnone]; nofun))
  case stopping =>
    have ht : t = _ := groupFault_stopping hst hwind
    rw [ht]
    refine ⟨fun hreleased => faultIfNoneReleased_stays hreleased, fun hnone => ?_⟩
    rw [faultIfNoneReleased_faults (s := s.onGroup g _) hnone, State.onGroup_onGroup]
    rfl
  case windDown =>
    have ht : t = windDownTest g s := groupFault_windDown hst hwind
    rw [ht]
    refine ⟨fun hsafe => if_pos ⟨hst, hwind, (allSafe_iff s g).mpr hsafe⟩, fun ⟨i, hm, hun⟩ => ?_⟩
    exact if_neg fun ⟨_, _, hsafe⟩ => hun ((allSafe_iff s g).mp hsafe i hm)
  case released => simp only [anyReleased_iff, isMember_iff_entry]

end Sys2Proof.Machine
end

section
/-! SUPPORT. GROUP requests that are refused (07 R115, R116, R122): how each refusal is reached, and that it leaves the state as it is. -/

namespace Sys2Proof.Machine

open Sys2Proof.Laws

/-! ### Refusals before the group's state is read -/

theorem groupReply_outside {n : Byte} (hn : 3 < n.toNat) (c : ResultCode) (s : State) : groupReply c n s = ⟨c, []⟩ := by
  rw [groupReply, dif_neg (by omega)]

theorem ownGroup_inactive {s : State} (h : s.lpu.opState ≠ .active) (n a : Byte) : ownGroup n a s = (groupReply .state n s, s) := if_pos h

/-- A number outside 0..3 and a group without members are INVALID, whatever the action (07 R115). -/
theorem ownGroup_memberless {s : State} {n : Byte} (hactive : s.lpu.opState = .active)
    (h : ∀ g : Fin 4, n.toNat = g.val → hasMembers s.tables.active g = false) (a : Byte) :
    ownGroup n a s = (groupReply .invalid n s, s) := by
  rw [ownGroup, if_neg (not_not_intro hactive)]
  split
  · rfl
  · split
    · next hn => rw [h ⟨n.toNat, hn⟩ rfl, if_neg Bool.false_ne_true]
    · rfl

/-- The rows of GROUP stand for the actions of 13 Section 13.4. -/
theorem groupRow_request {n : Byte} {c : Instr}
    (h : c ∈ [Instr.groupEngage n, .groupRun n, .groupTrack n, .groupUntrack n, .groupStop n, .groupDisengage n, .groupClear n]) :
    ∃ a, requestIn c = some (.group n a) := by
  simp only [List.mem_cons, List.not_mem_nil, or_false] at h
  rcases h with rfl | rfl | rfl | rfl | rfl | rfl | rfl <;> exact ⟨_, rfl⟩

/-! ### Refusals by the group's state -/

/-- The states in which R115's table takes an action, with or without effect. -/
def takingStates (a : Nat) : List GroupState :=
  match a with
  | 1 => [.idle, .engaging]
  | 2 => [.hold, .follow]
  | 3 => [.follow, .track]
  | 4 => [.follow, .track]
  | 5 => [.follow, .track, .stopping]
  | 6 => [.hold, .disengaging]
  | 7 => [.idle, .faulted]
  | _ => []

/-- In every other state an action is refused (07 R115). -/
theorem groupAction_refuses {a : Nat} {act : Fin 4 → State → Acted} {g : Fin 4} {s : State} (ha : groupAction a = some act)
    (h : (s.groups.get g).state ∉ takingStates a) : act g s = (.state, s) := by
  unfold groupAction at ha
  split at ha <;> first | (obtain rfl := Option.some.inj ha) | cases ha
  all_goals
    simp only [takingStates, List.mem_cons, List.not_mem_nil, or_false, not_or] at h
    simp only [actEngage, actRun, actTrack, actUntrack, actStop, actDisengage, actClear]
    split <;> simp_all only [reduceCtorEq, not_true_eq_false, false_and, and_false]

section

variable {g : Fin 4} {s : State}

theorem actEngage_unready (hst : (s.groups.get g).state = .idle) (h : ¬ mayEngage g s = true) : actEngage g s = (.state, s) := by
  rw [actEngage, hst]
  exact if_neg h

theorem actClear_driveFaulted (hst : (s.groups.get g).state = .idle ∨ (s.groups.get g).state = .faulted)
    (h : anyMember s g driveFaulted = true) : actClear g s = (.state, s) := by
  unfold actClear
  rcases hst with hst | hst <;> rw [hst] <;> exact if_pos h

/-- A member with a latch set, or without a last status that shows READY and no FAULT, keeps ENGAGE from being taken (07 R116). -/
theorem not_mayEngage_of_member {i : Fin 4} (hm : isMember s.tables.active g i = true)
    (h : (s.rollers.get i).chan.latch ≠ Latch.clear ∨ (s.rollers.get i).chan.lastStatus = none
      ∨ ∃ x, (s.rollers.get i).chan.lastStatus = some x ∧ (x.ready = false ∨ x.fault = true)) : ¬ mayEngage g s = true := by
  intro hmay
  obtain ⟨-, hmembers⟩ := (mayEngage_iff g s).mp hmay
  obtain ⟨hlatch, st, hstatus, hready, hfault⟩ := hmembers i hm
  rcases h with hset | hnone | ⟨x, hx, hbad⟩
  · exact hset hlatch
  · exact Option.some_ne_none st (hstatus.symm.trans hnone)
  · obtain rfl : st = x := Option.some.inj (hstatus.symm.trans hx)
    rcases hbad with hunready | hfaulted
    · exact Bool.false_ne_true (hunready.symm.trans hready)
    · exact Bool.false_ne_true (hfault.symm.trans hfaulted)

end

/-- Settles O50: each refusal is its owner's, and a refusing cell is one where the action answers STATE and leaves the state. -/
theorem groupActionsRefused : Obligations.GroupActionsRefused := by
  intro s n htakes rows
  refine ⟨fun hinactive c hc => ?inactive, fun hactive hnone c hc => ?memberless, fun g hactive hn hmembers => ?cells,
    fun c => ⟨fun hn => groupReply_outside hn c s, fun g hn => groupReply_eq hn c s⟩⟩
  case inactive =>
    obtain ⟨a, hreq⟩ := groupRow_request hc
    exact exec_replied hreq htakes (ownGroup_inactive hinactive n a) nofun
  case memberless =>
    obtain ⟨a, hreq⟩ := groupRow_request hc
    exact exec_replied hreq htakes (ownGroup_memberless hactive hnone a) nofun
  case cells =>
    intro st
    have answers {c : Instr} {a : Byte} {act : Fin 4 → State → Acted} (hc : requestIn c = some (.group n a))
        (ha : groupAction a.toNat = some act) (hact : act g s = (.state, s)) :
        ∃ t, exec c s = .next t ∧ Replied (groupReply .state n s) s t := by
      rw [groupReply_eq hn]
      exact exec_group hc htakes hactive ha hn hmembers hact
    have refused {c : Instr} {a : Byte} {act : Fin 4 → State → Acted} (hc : requestIn c = some (.group n a))
        (ha : groupAction a.toNat = some act) (hst : st ∉ takingStates a.toNat) :
        ∃ t, exec c s = .next t ∧ Replied (groupReply .state n s) s t := answers hc ha (groupAction_refuses ha hst)
    refine ⟨fun hst => refused rfl rfl ?_, fun hst => refused rfl rfl ?_,
      fun hst => ⟨refused rfl rfl ?_, refused rfl rfl ?_⟩, fun hst => refused rfl rfl ?_, fun hst => refused rfl rfl ?_,
      fun hst => refused rfl rfl ?_, fun hst hunready => answers rfl rfl (actEngage_unready hst ?unready),
      fun hst hfaulted => answers rfl rfl (actClear_driveFaulted hst ?faulted)⟩
    case unready =>
      rcases hunready with hext | ⟨i, hm, hmember⟩
      · exact fun hmay => ((mayEngage_iff g s).mp hmay).1 hext
      · exact not_mayEngage_of_member hm hmember
    case faulted =>
      obtain ⟨i, x, hm, hstatus, hfault⟩ := hfaulted
      exact (anyMember_iff s g driveFaulted).mpr ⟨i, hm, (driveFaulted_iff _).mpr ⟨x, hstatus, hfault⟩⟩
    all_goals simpa [takingStates] using hst

end Sys2Proof.Machine
end

section
/-! SUPPORT. The Pending Change List (08 R144 to R146): where a record is placed, which tables are pinned, and that every step keeps its order, its
bound and its pins. -/

namespace Sys2Proof.Machine

/-! ### The order of the records -/

theorem dueNotLater_iff (a b : Option Nat) : dueNotLater a b = true ↔ a = none ∨ ∃ x y, a = some x ∧ b = some y ∧ x ≤ y := by
  cases a <;> cases b <;> simp [dueNotLater]

theorem dueNotLater_of_not {a b : Option Nat} (h : ¬ dueNotLater a b = true) : dueNotLater b a = true := by
  rw [dueNotLater_iff] at h ⊢
  cases a with
  | none => exact absurd (.inl rfl) h
  | some x =>
    cases b with
    | none => exact .inl rfl
    | some y =>
      have hlater : ¬ x ≤ y := fun hle => h (.inr ⟨x, y, rfl, rfl, hle⟩)
      exact .inr ⟨y, x, rfl, rfl, Nat.le_of_not_le hlater⟩

theorem dueNotLater_trans {a b c : Option Nat} (h : dueNotLater a b = true) (k : dueNotLater b c = true) : dueNotLater a c = true := by
  rw [dueNotLater_iff] at h k ⊢
  rcases h with rfl | ⟨x, y, rfl, rfl, hxy⟩
  · exact .inl rfl
  · rcases k with hnone | ⟨y', z, hy, rfl, hyz⟩
    · cases hnone
    · obtain rfl : y = y' := Option.some.inj hy
      exact .inr ⟨x, z, rfl, rfl, hxy.trans hyz⟩

/-- A record stands after every record whose due cycle is not later than its own, and before the first of a later one (08 R144). -/
theorem insertRecord_place (r : ChangeRecord) (l : List ChangeRecord) :
    ∃ before after, l = before ++ after ∧ insertRecord r l = before ++ r :: after
      ∧ (∀ x ∈ before, dueNotLater x.due r.due = true) ∧ ∀ x, after.head? = some x → ¬ dueNotLater x.due r.due = true := by
  induction l with
  | nil => exact ⟨[], [], rfl, rfl, nofun, nofun⟩
  | cons x l ih =>
    unfold insertRecord
    split
    · rename_i hx
      obtain ⟨before, after, rfl, hinsert, hbefore, hafter⟩ := ih
      rw [hinsert]
      exact ⟨x :: before, after, rfl, rfl, List.forall_mem_cons.mpr ⟨hx, hbefore⟩, hafter⟩
    · rename_i hx
      refine ⟨[], x :: l, rfl, rfl, nofun, fun y hy => ?_⟩
      obtain rfl : x = y := Option.some.inj hy
      exact hx

theorem insertRecord_perm (r : ChangeRecord) (l : List ChangeRecord) : (insertRecord r l).Perm (r :: l) := by
  obtain ⟨before, after, rfl, hinsert, -⟩ := insertRecord_place r l
  rw [hinsert]
  exact List.perm_middle

@[simp] theorem insertRecord_length (r : ChangeRecord) (l : List ChangeRecord) : (insertRecord r l).length = l.length + 1 :=
  (insertRecord_perm r l).length_eq

theorem dueSorted_insertRecord (r : ChangeRecord) {l : List ChangeRecord} (h : dueSorted l) : dueSorted (insertRecord r l) := by
  obtain ⟨before, after, rfl, hinsert, hbefore, hafter⟩ := insertRecord_place r l
  obtain ⟨hsortedBefore, hsortedAfter, hacross⟩ := List.pairwise_append.mp h
  have hlater : ∀ y ∈ after, dueNotLater r.due y.due = true := by
    cases after with
    | nil => nofun
    | cons x after =>
      have hx : dueNotLater r.due x.due = true := dueNotLater_of_not (hafter x rfl)
      exact List.forall_mem_cons.mpr ⟨hx, fun y hy => dueNotLater_trans hx (List.rel_of_pairwise_cons hsortedAfter hy)⟩
  rw [hinsert]
  exact List.pairwise_append.mpr ⟨hsortedBefore, List.pairwise_cons.mpr ⟨hlater, hsortedAfter⟩,
    fun x hx => List.forall_mem_cons.mpr ⟨hbefore x hx, hacross x hx⟩⟩

/-! ### Pins -/

@[simp] theorem pin_get (mask : Byte) (c : Five TableCtl) (t : Table) :
    (pin mask c).get t = if maskNames mask t then { c.get t with pinned := true } else c.get t := Five.get_mapT _ c t

@[simp] theorem unpin_get (mask : Byte) (c : Five TableCtl) (t : Table) :
    (unpin mask c).get t = if maskNames mask t then { c.get t with pinned := false } else c.get t := Five.get_mapT _ c t

/-- Records removed one by one unpin every table that one of them names (08 R145). -/
theorem foldl_unpin_get (l : List ChangeRecord) (c : Five TableCtl) (t : Table) :
    (l.foldl (fun c r => unpin r.mask c) c).get t
      = { c.get t with pinned := (c.get t).pinned && !(l.any fun r => maskNames r.mask t) } := by
  induction l generalizing c with
  | nil => simp
  | cons r l ih =>
    rw [List.foldl_cons, ih, unpin_get, List.any_cons]
    cases maskNames r.mask t <;> simp

theorem anyNamed_iff (mask : Byte) (p : Table → Bool) : anyNamed mask p = true ↔ ∃ t, maskNames mask t = true ∧ p t = true := by
  unfold anyNamed
  rw [List.any_eq_true]
  constructor
  · rintro ⟨t, -, ht⟩
    exact ⟨t, Bool.and_eq_true_iff.mp ht⟩
  · rintro ⟨t, ht⟩
    exact ⟨t, by cases t <;> decide, Bool.and_eq_true_iff.mpr ht⟩

/-! ### A list with its pins -/

theorem masksApart.not_both {l : List ChangeRecord} (h : masksApart l) {x y : ChangeRecord} (hx : x ∈ l) (hy : y ∈ l) (hne : x ≠ y)
    {t : Table} (hnamed : maskNames x.mask t = true) : ¬ maskNames y.mask t = true := by
  have : Std.Symm fun a b : ChangeRecord => ∀ t, ¬ (maskNames a.mask t = true ∧ maskNames b.mask t = true) :=
    ⟨fun _ _ hab t ht => hab t ht.symm⟩
  exact fun hy' => h.forall hx hy hne t ⟨hnamed, hy'⟩

/-- What ChangesOk asks of a list and of what is held per table. -/
def ListOk (l : List ChangeRecord) (c : Five TableCtl) : Prop :=
  l.length ≤ 8 ∧ dueSorted l ∧ masksApart l ∧ ∀ t, (c.get t).pinned = l.any fun r => maskNames r.mask t

theorem changesOk_iff (s : State) : ChangesOk s ↔ ListOk s.tables.changes s.tables.ctl := Iff.rfl

theorem listOk_nil {c : Five TableCtl} (h : ∀ t, (c.get t).pinned = false) : ListOk [] c :=
  ⟨Nat.zero_le 8, List.Pairwise.nil, List.Pairwise.nil, h⟩

theorem ListOk.of_pins {l : List ChangeRecord} {c d : Five TableCtl} (h : ListOk l c) (hpins : ∀ t, (d.get t).pinned = (c.get t).pinned) :
    ListOk l d := by
  obtain ⟨hlength, hsorted, hapart, hpinned⟩ := h
  exact ⟨hlength, hsorted, hapart, fun t => (hpins t).trans (hpinned t)⟩

/-- A record enters the list and pins its tables (08 R144). -/
theorem ListOk.insert {l : List ChangeRecord} {c : Five TableCtl} (h : ListOk l c) {r : ChangeRecord} (hroom : l.length < 8)
    (hfree : ∀ t, maskNames r.mask t = true → (c.get t).pinned = false) : ListOk (insertRecord r l) (pin r.mask c) := by
  obtain ⟨-, hsorted, hapart, hpinned⟩ := h
  refine ⟨by rw [insertRecord_length]; omega, dueSorted_insertRecord r hsorted, ?apart, fun t => ?pins⟩
  case apart =>
    refine (insertRecord_perm r l).symm.pairwise (List.pairwise_cons.mpr ⟨fun x hx t ht => ?_, hapart⟩) fun hab t ht => hab t ht.symm
    have hnone := (hpinned t).symm.trans (hfree t ht.1)
    exact List.any_eq_false.mp hnone x hx ht.2
  case pins =>
    rw [(insertRecord_perm r l).any_eq, List.any_cons, pin_get, ← hpinned t]
    cases maskNames r.mask t <;> simp

/-- Records leave the list, in place of order, and their tables are unpinned, since no other record names them (08 R145, R146). -/
theorem ListOk.remove {l : List ChangeRecord} {c : Five TableCtl} (h : ListOk l c) (gone : ChangeRecord → Bool) :
    ListOk (l.filter fun r => !gone r) ((l.filter gone).foldl (fun c r => unpin r.mask c) c) := by
  obtain ⟨hlength, hsorted, hapart, hpinned⟩ := h
  refine ⟨(List.length_filter_le _ l).trans hlength, hsorted.filter _, hapart.filter _, fun t => ?_⟩
  rw [foldl_unpin_get, hpinned t, Bool.eq_iff_iff]
  simp only [Bool.and_eq_true, Bool.not_eq_true', List.any_eq_true, List.any_eq_false, List.mem_filter]
  constructor
  · rintro ⟨⟨r, hr, hnames⟩, hnone⟩
    exact ⟨r, ⟨hr, by simpa [hr, hnames] using hnone r⟩, hnames⟩
  · rintro ⟨r, ⟨hr, hstays⟩, hnames⟩
    refine ⟨⟨r, hr, hnames⟩, fun x ⟨hx, hgone⟩ hnamed => ?_⟩
    have hne : x ≠ r := by
      rintro rfl
      exact Bool.false_ne_true (hstays.symm.trans hgone)
    exact hapart.not_both hx hr hne hnamed hnames

/-- The record at the head leaves the list and its tables are unpinned (08 R148). -/
theorem ListOk.tail {r : ChangeRecord} {l : List ChangeRecord} {c : Five TableCtl} (h : ListOk (r :: l) c) : ListOk l (unpin r.mask c) := by
  obtain ⟨hlength, hsorted, hapart, hpinned⟩ := h
  obtain ⟨hfirst, hapart⟩ := List.pairwise_cons.mp hapart
  refine ⟨(Nat.le_succ _).trans hlength, hsorted.of_cons, hapart, fun t => ?_⟩
  rw [unpin_get]
  split
  · rename_i hr
    exact (List.any_eq_false.mpr fun x hx hnamed => hfirst x hx t ⟨hr, hnamed⟩).symm
  · rename_i hr
    rw [hpinned t, List.any_cons, Bool.eq_false_of_not_eq_true hr, Bool.false_or]

end Sys2Proof.Machine
end

section
/-! SUPPORT. What each part of the model's work leaves of the Pending Change List and its pins (08 R144 to R150): COMMIT and CANCEL change it in
place, START, HALT, the entry into freeze and the reset events empty it, a due record leaves it, and all else leaves it as it is. -/

namespace Sys2Proof.Machine

/-! ### Operations that leave the list -/

/-- The list and the pins are as they were. -/
structure ListKept (s t : State) : Prop where
  changes : t.tables.changes = s.tables.changes
  pinned : ∀ tb, (t.tables.ctl.get tb).pinned = (s.tables.ctl.get tb).pinned

theorem ListKept.of_tables {s t : State} (h : t.tables = s.tables) : ListKept s t := ⟨by rw [h], fun _ => by rw [h]⟩

theorem ListKept.ok {s t : State} (k : ListKept s t) (h : ChangesOk s) : ChangesOk t := by
  rw [changesOk_iff, k.changes]
  exact ((changesOk_iff s).mp h).of_pins k.pinned

theorem ownWriteEntry_listKept (t i : Byte) (bs : List Byte) (s : State) : ListKept s (ownWriteEntry t i bs s).2 := by
  unfold ownWriteEntry writeAt writePassed
  repeat' split
  all_goals exact ⟨rfl, fun _ => rfl⟩

theorem ownSetLive_listKept (t v : Byte) (s : State) : ListKept s (ownSetLive t v s).2 := by
  have hput (tb : Table) (b : Bool) :
      ListKept s (s.onTables fun x => { x with ctl := x.ctl.set tb { x.ctl.get tb with live := b } }) := by
    refine ⟨rfl, fun u => ?_⟩
    rw [State.onTables_tables, Five.get_set]
    split
    · rename_i hu
      rw [hu]
    · rfl
  unfold ownSetLive
  repeat' split
  all_goals first | exact .of_tables rfl | exact hput _ _

theorem onNamed_listKept (mask : Byte) {f : TableCtl → TableCtl} (hf : ∀ c, (f c).pinned = c.pinned) (s : State) :
    ListKept s (onNamed mask f s) := by
  refine ⟨rfl, fun t => ?_⟩
  rw [onNamed, State.onTables_tables, Five.get_mapT]
  split
  · exact hf _
  · rfl

/-- A lock leaves the pins (09 R153, R154). -/
theorem ownLock_listKept (mask mode : Byte) (s : State) : ListKept s (ownLock mask mode s).2 := by
  have hlock (c : TableCtl) : (lockTable c).pinned = c.pinned := by
    unfold lockTable
    split <;> rfl
  have hunlock (c : TableCtl) : (unlockTable c).pinned = c.pinned := by
    unfold unlockTable
    split <;> rfl
  have hdown (c : TableCtl) : (lockDownTable c).pinned = c.pinned := by
    unfold lockDownTable
    split <;> rfl
  unfold ownLock lockReply
  repeat' split
  all_goals first
    | exact .of_tables rfl
    | exact onNamed_listKept mask hlock s
    | exact onNamed_listKept mask hunlock s
    | exact onNamed_listKept mask hdown s

theorem takeLiveDue_listKept (p : Place) (s : State) : ListKept s (takeLiveDue p s) := by
  rcases takeLiveDue_cases p s with ⟨-, h⟩ | ⟨-, -, h⟩ | ⟨-, -, h⟩ <;> rw [h] <;> exact ⟨rfl, fun _ => rfl⟩

/-! ### Operations that empty the list -/

theorem unpinAll_pinned (c : Five TableCtl) (t : Table) : ((unpinAll c).get t).pinned = false := by
  rw [unpinAll, Five.get_mapT]

theorem freezeEntry_changes (s : State) : ChangesOk (freezeEntry s) := listOk_nil fun t =>
  (congrArg TableCtl.pinned (Five.get_mapT _ (unpinAll s.tables.ctl) t)).trans (unpinAll_pinned s.tables.ctl t)

theorem withFreezeEntry_changes (before : State) {after : State} (h : ChangesOk after) : ChangesOk (withFreezeEntry before after) := by
  unfold withFreezeEntry
  split
  · exact freezeEntry_changes after
  · exact h

theorem startRun_changes (s : State) : ChangesOk (startRun s) := listOk_nil (unpinAll_pinned s.tables.ctl)

theorem haltRun_changes (s : State) : ChangesOk (haltRun s) := listOk_nil (unpinAll_pinned _)

/-- The values of every reset event hold no record and no pin (08 R152). -/
theorem resetValues_changes (keep : Bool) (s : State) : ChangesOk (resetValues keep s) := listOk_nil fun t => by
  rw [resetValues_ctl]

theorem volatileLost_changes (s : State) : ChangesOk (volatileLost s) := listOk_nil fun t => by
  show ((unlockAll (resetValues false s).tables.ctl).get t).pinned = false
  rw [unlockAll, Five.get_mapT, resetValues_ctl]

theorem completeLoad_changes {s : State} (h : ChangesOk s) : ChangesOk (completeLoad s) := by
  refine withFreezeEntry_changes s (ListKept.ok (s := s) ?_ h)
  unfold loadTables
  split <;> exact ⟨rfl, fun _ => rfl⟩

/-! ### Records that come and go -/

/-- COMMIT in ACTIVE: refused, or accepted with no table of its mask pinned and room in the list (08 R143, R144). -/
theorem commitActive_cases (mask : Byte) (effective blend : Option Nat) (s : State) :
    (commitActive mask effective blend s).2 = s
      ∨ (¬ anyNamed mask (fun t => (s.tables.ctl.get t).pinned) = true ∧ s.tables.changes.length < 8
          ∧ (commitActive mask effective blend s).2 = acceptCommit mask effective blend s) := by
  unfold commitActive
  split
  · exact .inl rfl
  · split
    · exact .inl rfl
    · split
      · exact .inl rfl
      · rename_i hfree
        split
        · exact .inl rfl
        · rename_i hroom
          split
          · exact .inl rfl
          · exact .inr ⟨hfree, Nat.lt_of_not_le hroom, rfl⟩

theorem ownCommit_changes (mask presence : Byte) (effective : BitVec 64) (blend : BitVec 16) {s : State} (h : ChangesOk s) :
    ChangesOk (ownCommit mask presence effective blend s).2 := by
  have hactive (eff bl : Option Nat) : ChangesOk (commitActive mask eff bl s).2 := by
    rcases commitActive_cases mask eff bl s with e | ⟨hfree, hroom, e⟩ <;> rw [e]
    · exact h
    · refine ListOk.insert h hroom fun t ht => Bool.eq_false_of_not_eq_true fun hpinned => ?_
      exact hfree ((anyNamed_iff _ _).mpr ⟨t, ht, hpinned⟩)
  have hbypass (eff bl : Option Nat) : ChangesOk (commitBypass mask eff bl s).2 := by
    unfold commitBypass
    split
    · exact h
    · split
      · exact h
      · simp only
        rw [(noteStation_spec mask _).1]
        exact h
  unfold ownCommit
  simp only
  split
  · exact h
  · split
    · exact h
    · split
      · exact hactive _ _
      · exact hbypass _ _

theorem ownCancel_changes (mask : Byte) {s : State} (h : ChangesOk s) : ChangesOk (ownCancel mask s).2 := by
  unfold ownCancel
  split
  · exact h
  · exact ListOk.remove h fun r => sharesTable mask r.mask

/-- Every request keeps the list (08 R144, R145). -/
theorem own_changes (r : Request) {s : State} (h : ChangesOk s) : ChangesOk (own r s).2 := by
  cases r with
  | identify | readStatus | clearFlags => exact h
  | start =>
    show ChangesOk (ownStart s).2
    unfold ownStart
    repeat' split
    all_goals first | exact h | exact startRun_changes s
  | halt =>
    show ChangesOk (ownHalt s).2
    unfold ownHalt
    repeat' split
    all_goals first | exact h | exact haltRun_changes s
  | group g a =>
    obtain ⟨-, -, -, -, -, -, -, -, -, htables, -⟩ := (ownGroup_only g a s).fields
    exact ListKept.ok (.of_tables htables) h
  | readEntry t i c =>
    show ChangesOk (ownReadEntry t i c s).2
    unfold ownReadEntry
    repeat' split
    all_goals exact h
  | writeEntry t i bs => exact (ownWriteEntry_listKept t i bs s).ok h
  | setLive t v => exact (ownSetLive_listKept t v s).ok h
  | commit m p e b => exact ownCommit_changes m p e b h
  | cancel m => exact ownCancel_changes m h
  | lock m md => exact (ownLock_listKept m md s).ok h
  | freeze => exact withFreezeEntry_changes s h
  | thaw =>
    show ChangesOk (ownThaw s).2
    unfold ownThaw
    split <;> exact h
  | traceSet g d en =>
    rw [own, ownTraceSet_only]
    exact h
  | readTrace =>
    rw [own, ownReadTrace_only]
    exact h
  | storeSave =>
    rw [own, ownStoreSave_only]
    exact h
  | restart =>
    rw [own, ownRestart_only]
    exact h

/-! ### The accepted cycle -/

theorem takeRecord_ctl (r : ChangeRecord) (s : State) : (takeRecord r s).tables.ctl = unpin r.mask s.tables.ctl := by
  rcases takeRecord_cases r s with ⟨-, h⟩ | ⟨-, h⟩ <;> rw [h] <;> rfl

/-- The due records leave the list from its head (08 R147, R148). -/
theorem takeRecords_changes (e : Nat) {l : List ChangeRecord} {s : State} (h : ListOk l s.tables.ctl) : ChangesOk (takeRecords e l s) := by
  induction l generalizing s with
  | nil => exact h
  | cons r rest ih =>
    by_cases hdue : isDue e r = true
    · rw [takeRecords_due hdue]
      refine ih ?_
      rw [takeRecord_ctl]
      exact h.tail
    · rw [takeRecords_later hdue]
      exact h

theorem tableWork_changes (e : Nat) {s : State} (h : ChangesOk s) : ChangesOk (tableWork e s) :=
  takeRecords_changes e (foldl_keeps (P := ChangesOk) (fun s p => (takeLiveDue_listKept p s).ok) placesInOrder h)

/-- Of an accepted cycle's work the Table Manager's alone touches the tables (01 R17). -/
theorem acceptedCycle_tables (order : List (Fin 4)) (e k : Nat) (resync : Bool) (s : State) :
    (acceptedCycle order e k resync s).tables = (tableWork e s).tables := by
  obtain ⟨-, -, -, -, hcycle⟩ := acceptedCycle_published order e k resync s
  obtain ⟨-, -, -, -, -, -, -, -, -, hgroups, -⟩ := (groupsTake_onlyMotion k (channelsTake order k resync (tableWork e s))).fields
  obtain ⟨u, hu, hchannels⟩ := channelsTake_frame order k resync (tableWork e s)
  obtain ⟨-, -, -, -, -, -, -, -, -, htables, -⟩ := hu.fields
  rw [hcycle, composedCycle, hgroups, hchannels]
  exact htables

/-! ### Every step -/

theorem changesOk_keptByParts : KeptByParts ChangesOk where
  inputs _ _ _ _ h := h
  certOn s h := withFreezeEntry_changes s h
  certOff _ h := h
  motion s t hm h := by
    rw [hm]
    exact h
  owner r _ h := own_changes r h
  service _ _ h := h
  stores _ _ h := h
  line _ _ _ _ _ h := h
  frames _ _ _ _ h := h
  buffers _ _ h := h
  outGone _ h := h
  outCut _ h := h
  header _ _ h := h
  latched s h := by
    unfold latchFirst
    repeat' split
    all_goals exact h
  outField s i h := by
    unfold passOutField
    repeat' split
    all_goals exact h
  traced s h := by
    unfold traceAppends
    split <;> exact h
  accepted order e k resync cycle s _ _ h := by
    refine ListKept.ok (.of_tables (acceptedCycle_tables order e k resync _)) ?_
    exact tableWork_changes e h
  reset keep s _ := resetValues_changes keep s
  power s _ := volatileLost_changes s
  load _ _ h := completeLoad_changes h

/-- Settles O56 by the invariant principle (`step_keeps`): a record enters in its place with its tables unpinned before (`ListOk.insert`),
records leave with their pins, which no other record holds (`ListOk.remove`, `ListOk.tail`), and all else keeps or empties the list. -/
theorem pendingListKeptByEveryStep : Obligations.PendingListKeptByEveryStep := fun _ _ => step_keeps changesOk_keptByParts

end Sys2Proof.Machine
end

section
/-! SUPPORT. READ_ENTRY, SET_LIVE and CANCEL (08 R138, R142, R146): the tables their codes name, and what each answers. -/

namespace Sys2Proof.Machine

/-! ### Tables and their codes -/

theorem tableOf_eq_some {b : Byte} {t : Table} : tableOf b = some t ↔ b.toNat = codeOfTable t := by
  unfold tableOf tableOfCode
  cases t <;> split <;> simp_all [codeOfTable]

theorem tableOf_eq_none {b : Byte} : tableOf b = none ↔ 4 < b.toNat := by
  have hcodes : tableOf b = none ↔ ∀ t, b.toNat ≠ codeOfTable t := by
    rw [Option.eq_none_iff_forall_ne_some]
    exact forall_congr' fun t => not_congr tableOf_eq_some
  rw [hcodes]
  constructor
  · intro h
    have hcell := h .cell
    have hslots := h .slots
    have hrollers := h .rollers
    have hgroups := h .groups
    have hloads := h .loads
    simp only [codeOfTable] at hcell hslots hrollers hgroups hloads
    omega
  · intro h t
    cases t <;> simp only [codeOfTable] <;> omega

theorem isRunTable_iff (t : Table) : isRunTable t = true ↔ t = .rollers ∨ t = .groups ∨ t = .loads := by
  cases t <;> simp [isRunTable]

theorem isLocked_iff (s : State) (t : Table) : isLocked s t = true ↔ (s.tables.ctl.get t).lock ≠ .unlocked := decide_eq_true_iff

/-! ### READ_ENTRY -/

theorem ownReadEntry_answers {tb ix cp : Byte} {t : Table} {p : Place} (ht : tableOf tb = some t) (hp : placeOf t ix.toNat = some p)
    (hc : cp.toNat < 2) (s : State) :
    own (.readEntry tb ix cp) s =
      (⟨.done, entryBytes ((if cp.toNat = 0 then s.tables.staging else s.tables.active).entryAt p)
        ++ [BitVec.ofNat 8 (tableStatusByte (s.tables.ctl.get t))] ++ [if s.tables.due.at p then 1 else 0]⟩, s) := by
  have hmark : leBytes 1 (s.tables.due.at p).toNat = [if s.tables.due.at p then 1 else 0] := by
    cases s.tables.due.at p <;> rfl
  rw [own, ownReadEntry, ht]
  simp only
  rw [hp]
  simp only [hmark]
  obtain hc | hc : cp.toNat = 0 ∨ cp.toNat = 1 := by omega
  · rw [hc]
    rfl
  · rw [hc]
    rfl

theorem ownReadEntry_refused {tb ix cp : Byte}
    (h : 4 < tb.toNat ∨ 1 < cp.toNat ∨ ∃ t, tableOf tb = some t ∧ placeOf t ix.toNat = none) (s : State) :
    own (.readEntry tb ix cp) s = (plainReply .invalid, s) := by
  rw [own, ownReadEntry]
  split
  · rfl
  · rename_i t ht
    split
    · rfl
    · rename_i p hp
      have hcopy : 1 < cp.toNat := by
        rcases h with htable | hcopy | ⟨u, hu, hplace⟩
        · exact absurd (ht.symm.trans (tableOf_eq_none.mpr htable)) nofun
        · exact hcopy
        · obtain rfl : t = u := Option.some.inj (ht.symm.trans hu)
          exact absurd (hp.symm.trans hplace) nofun
      simp only
      split
      · rename_i hstaging
        exact absurd hcopy (by rw [hstaging]; decide)
      · rename_i hactive
        exact absurd hcopy (by rw [hactive]; decide)
      · rfl

/-- Settles O51: the copy is one of two, and an entry that is not named by table, index and copy is refused. -/
theorem readEntryReturnsTheEntry : Obligations.ReadEntryReturnsTheEntry := by
  intro s tb ix cp htakes
  exact ⟨fun t p ht hp hc => exec_replied rfl htakes (ownReadEntry_answers ht hp hc s) nofun,
    fun h => exec_replied rfl htakes (ownReadEntry_refused h s) nofun⟩

/-! ### SET_LIVE -/

section

variable {tb : Byte} {t : Table} (ht : tableOf tb = some t) (hrun : isRunTable t = true)

include ht hrun

theorem ownSetLive_clears (s : State) : own (.setLive tb 0) s =
    (plainReply .done, s.onTables fun x => { x with ctl := x.ctl.set t { x.ctl.get t with live := false } }) := by
  rw [own, ownSetLive, ht]
  simp only [hrun]
  rfl

theorem ownSetLive_sets {s : State} (hlock : (s.tables.ctl.get t).lock = .unlocked) (hfreeze : inFreeze s = false) :
    own (.setLive tb 1) s =
      (plainReply .done, s.onTables fun x => { x with ctl := x.ctl.set t { x.ctl.get t with live := true } }) := by
  have hfree : (isLocked s t || inFreeze s) = false := by
    rw [hfreeze, Bool.or_false, ← Bool.not_eq_true, isLocked_iff]
    exact not_not_intro hlock
  rw [own, ownSetLive, ht]
  simp only [hrun, hfree]
  rfl

theorem ownSetLive_barred {s : State} (h : (s.tables.ctl.get t).lock ≠ .unlocked ∨ inFreeze s = true) :
    own (.setLive tb 1) s = (plainReply .barred, s) := by
  have hbarred : (isLocked s t || inFreeze s) = true := by
    rwa [Bool.or_eq_true, isLocked_iff]
  rw [own, ownSetLive, ht]
  simp only [hrun, hbarred]
  rfl

end

/-- CELL, SLOTS and what is no table have no LIVE flag to set (08 R132, R142). -/
theorem ownSetLive_refused {tb : Byte} (h : tb.toNat < 2 ∨ 4 < tb.toNat) (v : Byte) (s : State) :
    own (.setLive tb v) s = (plainReply .invalid, s) := by
  rw [own, ownSetLive]
  cases ht : tableOf tb with
  | none => rfl
  | some t =>
    have hcode := tableOf_eq_some.mp ht
    have hrun : isRunTable t = false := by
      rw [← Bool.not_eq_true, isRunTable_iff]
      rintro (rfl | rfl | rfl) <;> simp only [codeOfTable] at hcode <;> omega
    simp only [hrun]
    rfl

/-- Settles O53: the flag of a run table alone changes, and setting it asks for neither lock nor freeze. -/
theorem setLiveSetsAndClears : Obligations.SetLiveSetsAndClears := by
  intro s tb htakes
  refine ⟨fun t ht hrun => ?_, fun h => ⟨exec_replied rfl htakes (ownSetLive_refused h 1 s) nofun,
    exec_replied rfl htakes (ownSetLive_refused h 0 s) nofun⟩⟩
  have hrun := (isRunTable_iff t).mpr hrun
  exact ⟨exec_replied rfl htakes (ownSetLive_clears ht hrun s) nofun,
    fun hlock hfreeze => exec_replied rfl htakes (ownSetLive_sets ht hrun hlock hfreeze) nofun,
    fun h => exec_replied rfl htakes (ownSetLive_barred ht hrun h) nofun⟩

/-! ### CANCEL -/

theorem maskInRange_iff (mask : Byte) : maskInRange mask = true ↔ mask.toNat < 32 := decide_eq_true_iff

theorem ownCancel_removes {mask : Byte} (h : mask.toNat < 32) (s : State) :
    own (.cancel mask) s =
      (⟨.done, [BitVec.ofNat 8 (s.tables.changes.filter fun r => sharesTable mask r.mask).length]⟩,
        s.onTables fun x => { x with
          changes := x.changes.filter fun r => !sharesTable mask r.mask
          ctl := (x.changes.filter fun r => sharesTable mask r.mask).foldl (fun c r => unpin r.mask c) x.ctl }) := by
  rw [own, ownCancel, (maskInRange_iff mask).mpr h]
  rfl

theorem ownCancel_refused {mask : Byte} (h : 32 ≤ mask.toNat) (s : State) : own (.cancel mask) s = (plainReply .invalid, s) := by
  have hout : maskInRange mask = false := decide_eq_false (Nat.not_lt.mpr h)
  rw [own, ownCancel, hout]
  rfl

/-- Settles O55: the records that share a table with the mask leave whole, each with its pins (`foldl_unpin_get`). -/
theorem cancelRemovesNamedRecords : Obligations.CancelRemovesNamedRecords := by
  intro s mask htakes hit
  refine ⟨fun h => ?_, fun h => exec_replied rfl htakes (ownCancel_refused h s) nofun⟩
  obtain ⟨t, hexec, hreplied⟩ := exec_replied (c := .cancel mask) rfl htakes (ownCancel_removes h s) nofun
  refine ⟨t, _, hexec, hreplied, rfl, fun tb => ?_⟩
  rw [State.onTables_tables, foldl_unpin_get, List.any_filter]
  rfl

end Sys2Proof.Machine
end

section
/-! SUPPORT. WRITE_ENTRY (08 R139, R140): the entry that a place then holds, the rollers whose group a live entry changes, the live check as its
rules (R136, R137), and each step of the judgement. -/

namespace Sys2Proof.Machine

/-! ### An entry at a place -/

/-- The table an entry belongs to. -/
def Entry.table : Entry → Table
  | .cell _ => .cell
  | .slots _ => .slots
  | .rollers _ => .rollers
  | .groups _ => .groups
  | .loads _ => .loads

/-- An entry read for a table is one of that table (13 Section 13.5). -/
theorem entryOf_table {t : Table} {bs : List Byte} {e : Entry} (h : entryOf t bs = some e) : e.table = t := by
  cases t with
  | slots =>
    obtain ⟨x, -, rfl⟩ := Option.map_eq_some_iff.mp h
    rfl
  | cell | rollers | groups | loads =>
    obtain rfl := Option.some.inj h
    rfl

theorem Tables.entryAt_put_same (t : Tables) {p : Place} {e : Entry} (h : e.table = p.table) : (t.putEntry p e).entryAt p = e := by
  cases p with
  | cell => cases e with
    | cell x => rfl
    | _ => cases h
  | slots i => cases e with
    | slots x => exact congrArg Entry.slots (Quad.get_set_same t.slots i x)
    | _ => cases h
  | rollers i => cases e with
    | rollers x => exact congrArg Entry.rollers (Quad.get_set_same t.rollers i x)
    | _ => cases h
  | groups i => cases e with
    | groups x => exact congrArg Entry.groups (Quad.get_set_same t.groups i x)
    | _ => cases h
  | loads i => cases e with
    | loads x => exact congrArg Entry.loads ((Octo.get_set t.loads i i x).trans (if_pos rfl))
    | _ => cases h

theorem Tables.entryAt_put (t : Tables) (p q : Place) {e : Entry} (h : e.table = p.table) :
    (t.putEntry p e).entryAt q = if q = p then e else t.entryAt q := by
  split
  · rename_i hq
    rw [hq, t.entryAt_put_same h]
  · rename_i hq
    exact t.entryAt_put_other hq e

/-! ### The group change test of a written entry -/

theorem putEntry_rollers_same (t : Tables) (i : Fin 4) (r : RollersEntry) : (t.putEntry (.rollers i) (.rollers r)).rollers.get i = r :=
  Quad.get_set_same t.rollers i r

/-- Of all entries a ROLLERS entry alone changes what is held of a roller, and of no roller but its own. -/
theorem putEntry_rollers_changed {t : Tables} {p : Place} {e : Entry} {j : Fin 4}
    (h : t.rollers.get j ≠ (t.putEntry p e).rollers.get j) : ∃ r, p = .rollers j ∧ e = .rollers r := by
  unfold Tables.putEntry at h
  split at h
  case h_3 i r =>
    by_cases hj : j = i
    · exact ⟨r, by rw [hj], rfl⟩
    · exact absurd (t.rollers.get_set_other i j r hj).symm h
  all_goals exact absurd rfl h

/-- A ROLLERS entry moves its roller out of or into a group that is not IDLE or FAULTED (08 R139). -/
def MovesRunning (s : State) (p : Place) (e : Entry) : Prop :=
  ∃ i r, p = .rollers i ∧ e = .rollers r ∧ (s.tables.active.rollers.get i).group ≠ r.group
    ∧ ∃ g : Fin 4, ((s.tables.active.rollers.get i).group = some g.val ∨ r.group = some g.val)
      ∧ (s.groups.get g).state ≠ .idle ∧ (s.groups.get g).state ≠ .faulted

theorem groupChangeOk_putEntry (s : State) (p : Place) (e : Entry) :
    groupChangeOk s (s.tables.active.putEntry p e) = true ↔ ¬ MovesRunning s p e := by
  rw [groupChangeOk_iff]
  constructor
  · rintro h ⟨i, r, rfl, rfl, hne, g, hnamed, hidle, hfaulted⟩
    have hstands := h i g
    rw [putEntry_rollers_same] at hstands
    exact (hstands hne hnamed).elim hidle hfaulted
  · intro h i g hne hnamed
    obtain ⟨r, rfl, rfl⟩ := putEntry_rollers_changed fun heq => hne (congrArg RollersEntry.group heq)
    rw [putEntry_rollers_same] at hne hnamed
    by_contra hstands
    exact h ⟨i, r, rfl, rfl, hne, g, hnamed, not_or.mp hstands⟩

/-! ### The live check -/

/-- The cross-rules that involve one of the named tables (08 R136). -/
theorem crossRules_iff (named : Table → Bool) (image : Tables) :
    crossRules named image = true ↔ ((named .rollers = true ∨ named .slots = true) → membersPlaced image)
      ∧ ((named .slots = true ∨ named .cell = true) → fieldsPlaced image) := by
  unfold crossRules
  rw [Bool.and_eq_true, Bool.or_eq_true, Bool.or_eq_true, Bool.not_eq_true', Bool.not_eq_true', ← Bool.not_eq_true, ← Bool.not_eq_true,
    Bool.or_eq_true, Bool.or_eq_true, membershipRule_iff, placementRule_iff, ← imp_iff_not_or, ← imp_iff_not_or]

/-- The live check (08 R137). -/
theorem liveCheck_iff (t : Tables) (p : Place) (e : Entry) :
    liveCheck t p e = true ↔ entryInRange e ∧ ((p.table = .rollers ∨ p.table = .slots) → membersPlaced (t.putEntry p e))
      ∧ ((p.table = .slots ∨ p.table = .cell) → fieldsPlaced (t.putEntry p e)) := by
  unfold liveCheck
  rw [Bool.and_eq_true, entryCheck_iff, crossRules_iff]
  simp only [beq_iff_eq, eq_comm (b := p.table)]

/-! ### The judgement -/

section

variable {s : State} {p : Place} {bs : List Byte}

theorem writeAt_barred (h : (s.tables.ctl.get p.table).lock ≠ .unlocked ∨ inFreeze s = true) :
    writeAt p bs s = (plainReply .barred, s) :=
  if_pos (by rwa [Bool.or_eq_true, isLocked_iff])

section

variable (hlock : (s.tables.ctl.get p.table).lock = .unlocked) (hfreeze : inFreeze s = false)

include hlock hfreeze

theorem not_barred : (isLocked s p.table || inFreeze s) = false := by
  rw [hfreeze, Bool.or_false, ← Bool.not_eq_true, isLocked_iff]
  exact not_not_intro hlock

theorem writeAt_pending (hpin : (s.tables.ctl.get p.table).pinned = true) : writeAt p bs s = (plainReply .pending, s) := by
  rw [writeAt, not_barred hlock hfreeze, hpin]
  rfl

variable (hpin : (s.tables.ctl.get p.table).pinned = false)

include hpin

theorem writeAt_unfit (h : ∀ e, entryOf p.table bs = some e → entryCheck e = false) : writeAt p bs s = (plainReply .invalid, s) := by
  rw [writeAt, not_barred hlock hfreeze, hpin]
  cases he : entryOf p.table bs with
  | none => rfl
  | some e =>
    simp only [h e he]
    rfl

/-- An entry within its ranges is judged on, with LIVE on, by the live check and the group change test (08 R139). -/
theorem writeAt_fit {e : Entry} (he : entryOf p.table bs = some e) (hcheck : entryCheck e = true) : writeAt p bs s =
    if (s.tables.ctl.get p.table).live && !liveCheck s.tables.active p e then refuse .invalid s
    else if (s.tables.ctl.get p.table).live && decide (s.lpu.opState = .active) && !groupChangeOk s (s.tables.active.putEntry p e)
      then refuse .state s
    else writePassed p e s := by
  rw [writeAt, not_barred hlock hfreeze, hpin, he]
  simp only [hcheck]
  rfl

end

/-! ### The write -/

theorem writePassed_staging (hlive : (s.tables.ctl.get p.table).live = false) (e : Entry) :
    writePassed p e s = (plainReply .done, s.onTables fun x => { x with staging := x.staging.putEntry p e }) := by
  rw [writePassed, hlive]
  rfl

theorem writePassed_marked (hlive : (s.tables.ctl.get p.table).live = true) (hactive : s.lpu.opState = .active) (e : Entry) :
    writePassed p e s = (plainReply .accepted,
      s.onTables fun x => { x with staging := x.staging.putEntry p e, due := x.due.put p true }) := by
  rw [writePassed, hlive, hactive]
  rfl

theorem writePassed_applied (hlive : (s.tables.ctl.get p.table).live = true) (hbypass : s.lpu.opState = .bypass) (e : Entry) :
    writePassed p e s = (plainReply .done, applyTables (s.tables.active.putEntry p e) none
      (s.onTables fun x => { x with staging := x.staging.putEntry p e })) := by
  rw [writePassed, hlive, hbypass]
  rfl

/-! ### The request -/

theorem ownWriteEntry_no_table {tb : Byte} (h : 4 < tb.toNat) (ix : Byte) :
    own (.writeEntry tb ix bs) s = (plainReply .invalid, s) := by
  rw [own, ownWriteEntry, tableOf_eq_none.mpr h]
  rfl

theorem ownWriteEntry_length {tb : Byte} {t : Table} (ht : tableOf tb = some t) (hlen : bs.length ≠ entrySize t) (ix : Byte) :
    own (.writeEntry tb ix bs) s = (plainReply .length, s) := by
  rw [own, ownWriteEntry, ht]
  exact if_pos hlen

theorem ownWriteEntry_no_place {tb ix : Byte} {t : Table} (ht : tableOf tb = some t) (hlen : bs.length = entrySize t)
    (hplace : placeOf t ix.toNat = none) : own (.writeEntry tb ix bs) s = (plainReply .invalid, s) := by
  rw [own, ownWriteEntry, ht]
  simp only
  rw [if_neg (not_not_intro hlen), hplace]
  rfl

theorem ownWriteEntry_at {tb ix : Byte} (ht : tableOf tb = some p.table) (hlen : bs.length = entrySize p.table)
    (hplace : placeOf p.table ix.toNat = some p) : own (.writeEntry tb ix bs) s = writeAt p bs s := by
  rw [own, ownWriteEntry, ht]
  simp only
  rw [if_neg (not_not_intro hlen), hplace]

end

/-- Settles O52: the judgement step by step in its order, the write in its three ways, and the two checks rule by rule. -/
theorem writeEntryWritesStaging : Obligations.WriteEntryWritesStaging := by
  refine ⟨fun s tb ix bs htakes => ?request, entryCheck_iff, fun t p e => ⟨liveCheck_iff t p e, fun q e' he => ?entry⟩⟩
  case entry => exact t.entryAt_put p q (entryOf_table he)
  case request =>
    intro answers
    have answered {code : ResultCode} {u : State} (h : own (.writeEntry tb ix bs) s = (plainReply code, u)) : answers code u :=
      exec_replied rfl htakes h nofun
    refine ⟨fun h => answered (ownWriteEntry_no_table h ix), fun t ht hlen => answered (ownWriteEntry_length ht hlen ix),
      fun t ht hlen hplace => answered (ownWriteEntry_no_place ht hlen hplace), fun p ht hplace hlen => ?_⟩
    have judged {code : ResultCode} {u : State} (h : writeAt p bs s = (plainReply code, u)) : answers code u :=
      answered ((ownWriteEntry_at ht hlen hplace).trans h)
    refine ⟨fun h => judged (writeAt_barred h), fun hlock hfreeze hpin => judged (writeAt_pending hlock hfreeze hpin),
      fun hlock hfreeze hpin => ⟨fun h => judged (writeAt_unfit hlock hfreeze hpin h), fun e he hcheck => ?_⟩⟩
    have hfit := writeAt_fit hlock hfreeze hpin he hcheck
    refine ⟨fun hlive => judged (hfit.trans ?staging), fun hlive hfails => judged (hfit.trans ?fails), fun hlive hpasses =>
      ⟨fun hactive hmoves => judged (hfit.trans ?moves), fun hactive hstays => judged (hfit.trans ?marked),
        fun hbypass => judged (hfit.trans ?applied)⟩⟩
    case staging =>
      simp only [hlive]
      exact writePassed_staging hlive e
    case fails =>
      simp only [hlive, hfails]
      rfl
    case moves =>
      have hchange : groupChangeOk s (s.tables.active.putEntry p e) = false := by
        rw [← Bool.not_eq_true, groupChangeOk_putEntry]
        exact not_not_intro hmoves
      simp only [hlive, hpasses, hactive, hchange]
      rfl
    case marked =>
      have hchange := (groupChangeOk_putEntry s p e).mpr hstays
      simp only [hlive, hpasses, hactive, hchange]
      exact writePassed_marked hlive hactive e
    case applied =>
      simp only [hlive, hpasses, hbypass]
      exact writePassed_applied hlive hbypass e

end Sys2Proof.Machine
end

section
/-! SUPPORT. COMMIT (08 R143, R144): the commit check as its rules (R133 to R137), each step of the judgement in BYPASS and in ACTIVE, the
application at once and the record that waits. -/

namespace Sys2Proof.Machine

/-! ### The commit check -/

theorem tableCheck_iff (t : Tables) (tb : Table) : tableCheck t tb = true ↔ ∀ p : Place, p.table = tb → entryInRange (t.entryAt p) := by
  simp only [← entryCheck_iff]
  constructor
  · rintro h p rfl
    cases p with
    | cell => exact h
    | slots i => exact (Quad.all_toList _ _).mp h i
    | rollers i => exact (Quad.all_toList _ _).mp h i
    | groups i => exact (Quad.all_toList _ _).mp h i
    | loads i => exact (Octo.all_toList _ _).mp h i
  · intro h
    cases tb with
    | cell => exact h .cell rfl
    | slots => exact (Quad.all_toList _ _).mpr fun i => h (.slots i) rfl
    | rollers => exact (Quad.all_toList _ _).mpr fun i => h (.rollers i) rfl
    | groups => exact (Quad.all_toList _ _).mpr fun i => h (.groups i) rfl
    | loads => exact (Octo.all_toList _ _).mpr fun i => h (.loads i) rfl

theorem mem_tablesInOrder (t : Table) : t ∈ tablesInOrder := by
  cases t <;> decide

/-- The commit check (08 R136, R137). -/
theorem commitCheck_iff (named : Table → Bool) (staging active : Tables) :
    commitCheck named staging active = true ↔ (∀ p : Place, named p.table = true → entryInRange (staging.entryAt p))
      ∧ ((named .rollers = true ∨ named .slots = true) → membersPlaced (Tables.merge named staging active))
      ∧ ((named .slots = true ∨ named .cell = true) → fieldsPlaced (Tables.merge named staging active)) := by
  have hranges : tablesInOrder.all (fun t => !named t || tableCheck staging t) = true
      ↔ ∀ p : Place, named p.table = true → entryInRange (staging.entryAt p) := by
    simp only [List.all_eq_true, mem_tablesInOrder, true_imp_iff, Bool.or_eq_true, Bool.not_eq_true', ← Bool.not_eq_true,
      ← imp_iff_not_or, tableCheck_iff]
    exact ⟨fun h p hp => h p.table hp p rfl, fun h t ht p hp => h p (hp ▸ ht)⟩
  unfold commitCheck
  rw [Bool.and_eq_true, hranges, crossRules_iff]

theorem entryAt_merge (named : Table → Bool) (src dst : Tables) (p : Place) :
    (Tables.merge named src dst).entryAt p = if named p.table then src.entryAt p else dst.entryAt p := by
  cases p with
  | cell => exact apply_ite Entry.cell (named .cell = true) src.cell dst.cell
  | slots i => exact apply_ite (fun q => Entry.slots (q.get i)) (named .slots = true) src.slots dst.slots
  | rollers i => exact apply_ite (fun q => Entry.rollers (q.get i)) (named .rollers = true) src.rollers dst.rollers
  | groups i => exact apply_ite (fun q => Entry.groups (q.get i)) (named .groups = true) src.groups dst.groups
  | loads i => exact apply_ite (fun q => Entry.loads (q.get i)) (named .loads = true) src.loads dst.loads

/-! ### What the request gives -/

/-- An empty mask, one that names something other than the five tables, or blend cycles outside 1..4096 (08 R143; log 13). -/
def CommitMalformed (mask pres : Byte) (bl : BitVec 16) : Prop :=
  mask = 0 ∨ 32 ≤ mask.toNat ∨ (pres.getLsbD 1 = true ∧ (bl.toNat = 0 ∨ 4096 < bl.toNat))

theorem givenBlend_all (pres : Byte) (bl : BitVec 16) :
    (givenBlend pres bl).all (inRange 1 4096) = true ↔ ¬ (pres.getLsbD 1 = true ∧ (bl.toNat = 0 ∨ 4096 < bl.toNat)) := by
  unfold givenBlend
  cases pres.getLsbD 1
  · exact iff_of_true rfl fun h => Bool.false_ne_true h.1
  · show inRange 1 4096 bl.toNat = true ↔ _
    rw [inRange_iff, eq_self_iff_true, true_and]
    omega

theorem commitMalformed_iff (mask pres : Byte) (bl : BitVec 16) :
    (decide (mask = 0) || !maskInRange mask || !((givenBlend pres bl).all (inRange 1 4096))) = true ↔ CommitMalformed mask pres bl := by
  unfold CommitMalformed
  rw [Bool.or_eq_true, Bool.or_eq_true, decide_eq_true_iff, Bool.not_eq_true', ← Bool.not_eq_true, maskInRange_iff, Nat.not_lt,
    Bool.not_eq_true', ← Bool.not_eq_true, givenBlend_all, not_not, or_assoc]

theorem givenEffective_isSome (pres : Byte) (eff : BitVec 64) : (givenEffective pres eff).isSome = pres.getLsbD 0 := by
  unfold givenEffective
  cases pres.getLsbD 0 <;> rfl

theorem anyNotRun_iff (mask : Byte) :
    anyNamed mask (fun t => !isRunTable t) = true ↔ maskNames mask .cell = true ∨ maskNames mask .slots = true := by
  rw [anyNamed_iff]
  constructor
  · rintro ⟨t, hnamed, hrun⟩
    cases t with
    | cell => exact .inl hnamed
    | slots => exact .inr hnamed
    | rollers | groups | loads => cases hrun
  · rintro (hnamed | hnamed)
    · exact ⟨.cell, hnamed, rfl⟩
    · exact ⟨.slots, hnamed, rfl⟩

/-! ### The judgement in every state -/

section

variable {mask pres : Byte} {bl : BitVec 16} {s : State}

theorem anyNamed_not_barred (hfree : ∀ t, maskNames mask t = true → (s.tables.ctl.get t).lock = .unlocked)
    (hfreeze : inFreeze s = false) : ¬ (anyNamed mask (isLocked s) || inFreeze s) = true := by
  rw [hfreeze, Bool.or_false, anyNamed_iff]
  rintro ⟨t, hnamed, hlocked⟩
  exact (isLocked_iff s t).mp hlocked (hfree t hnamed)

theorem ownCommit_malformed (h : CommitMalformed mask pres bl) (eff : BitVec 64) :
    own (.commit mask pres eff bl) s = (plainReply .invalid, s) :=
  if_pos ((commitMalformed_iff mask pres bl).mpr h)

variable (hformed : ¬ CommitMalformed mask pres bl)

include hformed

theorem ownCommit_barred (h : (¬ ∀ t, maskNames mask t = true → (s.tables.ctl.get t).lock = .unlocked) ∨ inFreeze s = true)
    (eff : BitVec 64) : own (.commit mask pres eff bl) s = (plainReply .barred, s) := by
  have hbarred : (anyNamed mask (isLocked s) || inFreeze s) = true := by
    rw [Bool.or_eq_true, anyNamed_iff]
    refine h.imp_left fun hlocked => ?_
    obtain ⟨t, ht⟩ := not_forall.mp hlocked
    obtain ⟨hnamed, hlock⟩ := Classical.not_imp.mp ht
    exact ⟨t, hnamed, (isLocked_iff s t).mpr hlock⟩
  exact (if_neg (mt (commitMalformed_iff mask pres bl).mp hformed)).trans (if_pos hbarred)

variable (hfree : ∀ t, maskNames mask t = true → (s.tables.ctl.get t).lock = .unlocked) (hfreeze : inFreeze s = false)

include hfree hfreeze

theorem ownCommit_bypass (hbypass : s.lpu.opState = .bypass) (eff : BitVec 64) :
    own (.commit mask pres eff bl) s = commitBypass mask (givenEffective pres eff) (givenBlend pres bl) s := by
  rw [own, ownCommit, if_neg (mt (commitMalformed_iff mask pres bl).mp hformed), if_neg (anyNamed_not_barred hfree hfreeze), hbypass]

theorem ownCommit_active (hactive : s.lpu.opState = .active) (eff : BitVec 64) :
    own (.commit mask pres eff bl) s = commitActive mask (givenEffective pres eff) (givenBlend pres bl) s := by
  rw [own, ownCommit, if_neg (mt (commitMalformed_iff mask pres bl).mp hformed), if_neg (anyNamed_not_barred hfree hfreeze), hactive]

end

/-! ### COMMIT in BYPASS -/

section

variable {mask : Byte} {s : State}

theorem commitBypass_refused {effective : Option Nat}
    (h : effective.isSome = true ∨ commitCheck (maskNames mask) s.tables.staging s.tables.active = false) (blend : Option Nat) :
    commitBypass mask effective blend s = (plainReply .invalid, s) := by
  unfold commitBypass
  split
  · rfl
  · rename_i heff
    exact if_pos (by rw [h.resolve_left heff]; rfl)

/-- A commit of CELL gives its station to the outbound frame whose target byte is still to pass (10 R162; log 12). -/
theorem noteStation_applied (blend : Option Nat) (s : State) :
    noteStation mask (applyTables (Tables.merge (maskNames mask) s.tables.staging s.tables.active) blend s) =
      let applied := applyTables (Tables.merge (maskNames mask) s.tables.staging s.tables.active) blend s
      if maskNames mask .cell then { applied with
        outPass := s.outPass.map fun p => { p with
          station := if p.ahead = 0 then p.station else s.tables.staging.cell.station, ahead := p.ahead - 1 } } else applied := by
  unfold noteStation
  simp only
  split
  · rename_i hcell
    have hstation : (Tables.merge (maskNames mask) s.tables.staging s.tables.active).cell = s.tables.staging.cell := if_pos hcell
    have hmeets : Pass.meetStation s.tables.staging.cell.station = fun p => { p with
        station := if p.ahead = 0 then p.station else s.tables.staging.cell.station, ahead := p.ahead - 1 } :=
      funext (Pass.meetStation_spec _)
    rw [← hmeets, ← hstation]
    rfl
  · rfl

theorem commitBypass_applied (hcheck : commitCheck (maskNames mask) s.tables.staging s.tables.active = true) (blend : Option Nat) :
    commitBypass mask none blend s =
      (⟨.done, [BitVec.ofNat 8 s.tables.changes.length]⟩,
        noteStation mask (applyTables (Tables.merge (maskNames mask) s.tables.staging s.tables.active) blend s)) := by
  rw [commitBypass, hcheck]
  simp only
  rw [(noteStation_spec mask _).1]
  rfl

end

/-! ### COMMIT in ACTIVE -/

theorem effectiveRefusal_unset {effective : Option Nat} (h : effective ≠ none) : effectiveRefusal none effective = some .state := by
  obtain ⟨x, rfl⟩ := Option.ne_none_iff_exists'.mp h
  rfl

theorem effectiveRefusal_outside {e x : Nat} (h : ¬ (e + 1 ≤ x ∧ x ≤ e + 1048576)) :
    effectiveRefusal (some e) (some x) = some .invalid :=
  if_neg h

theorem effectiveRefusal_none {ext effective : Option Nat}
    (h : ∀ x, effective = some x → ∃ e, ext = some e ∧ e + 1 ≤ x ∧ x ≤ e + 1048576) : effectiveRefusal ext effective = none := by
  cases effective with
  | none => rfl
  | some x =>
    obtain ⟨e, rfl, hwithin⟩ := h x rfl
    exact if_pos hwithin

section

variable {mask : Byte} {effective : Option Nat} {s : State}

theorem commitActive_notRun (h : maskNames mask .cell = true ∨ maskNames mask .slots = true) (blend : Option Nat) :
    commitActive mask effective blend s = (plainReply .state, s) :=
  if_pos ((anyNotRun_iff mask).mpr h)

variable (hcell : maskNames mask .cell = false) (hslots : maskNames mask .slots = false)

include hcell hslots

theorem anyNotRun_false : ¬ anyNamed mask (fun t => !isRunTable t) = true := by
  rw [anyNotRun_iff, hcell, hslots]
  simp

theorem commitActive_effective {c : ResultCode} (h : effectiveRefusal s.lpu.ext effective = some c) (blend : Option Nat) :
    commitActive mask effective blend s = (plainReply c, s) := by
  rw [commitActive, if_neg (anyNotRun_false hcell hslots), h]
  rfl

variable (heff : effectiveRefusal s.lpu.ext effective = none)

include heff

theorem commitActive_pending (h : ∃ t, maskNames mask t = true ∧ (s.tables.ctl.get t).pinned = true) (blend : Option Nat) :
    commitActive mask effective blend s = (plainReply .pending, s) := by
  rw [commitActive, if_neg (anyNotRun_false hcell hslots), heff]
  exact if_pos ((anyNamed_iff _ _).mpr h)

variable (hfree : ¬ ∃ t, maskNames mask t = true ∧ (s.tables.ctl.get t).pinned = true)

include hfree

theorem commitActive_full (h : 8 ≤ s.tables.changes.length) (blend : Option Nat) :
    commitActive mask effective blend s = (plainReply .full, s) := by
  rw [commitActive, if_neg (anyNotRun_false hcell hslots), heff]
  exact (if_neg (mt (anyNamed_iff _ _).mp hfree)).trans (if_pos h)

/-- With room in the list the commit check decides (08 R143). -/
theorem commitActive_checked (hroom : s.tables.changes.length < 8) (blend : Option Nat) :
    commitActive mask effective blend s =
      if !commitCheck (maskNames mask) s.tables.staging s.tables.active then refuse .invalid s
      else (⟨.accepted, [BitVec.ofNat 8 (s.tables.changes.length + 1)]⟩, acceptCommit mask effective blend s) := by
  have hlength : (acceptCommit mask effective blend s).tables.changes.length = s.tables.changes.length + 1 := insertRecord_length _ _
  rw [commitActive, if_neg (anyNotRun_false hcell hslots), heff, ← hlength]
  exact (if_neg (mt (anyNamed_iff _ _).mp hfree)).trans (if_neg (Nat.not_le.mpr hroom))

end

/-- Settles O54: the judgement step by step in its order, the application of BYPASS with the frame it meets, the record of ACTIVE in its place
(`insertRecord_place`), and the commit check rule by rule. -/
theorem commitAppliesOrWaits : Obligations.CommitAppliesOrWaits := by
  refine ⟨fun s mask pres eff bl htakes => ?request, fun r l => ?place,
    fun named staging active => ⟨commitCheck_iff named staging active, entryAt_merge named staging active⟩⟩
  case place =>
    obtain ⟨before, after, hl, hinsert, hbefore, hafter⟩ := insertRecord_place r l
    exact ⟨before, after, hl, hinsert, fun x hx => (dueNotLater_iff _ _).mp (hbefore x hx),
      fun x hx hnot => hafter x hx ((dueNotLater_iff _ _).mpr hnot)⟩
  case request =>
    intro answers blend effective check malformed free pinned
    have answered {code : ResultCode} {payload : List Byte} {u : State}
        (h : own (.commit mask pres eff bl) s = (⟨code, payload⟩, u)) : answers code payload u :=
      exec_replied rfl htakes h nofun
    refine ⟨fun h => answered (ownCommit_malformed h eff), fun hformed h => answered (ownCommit_barred hformed h eff),
      fun hformed hfree hfreeze => ⟨fun hbypass => ?bypass, fun hactive => ?active⟩⟩
    case bypass =>
      have hown := ownCommit_bypass hformed hfree hfreeze hbypass eff
      refine ⟨fun h => answered (hown.trans (commitBypass_refused ?refused blend)), fun hnone hcheck => answered (hown.trans ?applied)⟩
      case refused => rwa [givenEffective_isSome]
      case applied =>
        have heff : givenEffective pres eff = none := if_neg (by rw [hnone]; decide)
        rw [heff, commitBypass_applied hcheck, noteStation_applied]
        rfl
    case active =>
      have hown := ownCommit_active hformed hfree hfreeze hactive eff
      refine ⟨fun h => answered (hown.trans (commitActive_notRun h blend)), fun hcell hslots =>
        ⟨fun hgiven hunset => answered (hown.trans (commitActive_effective hcell hslots ?unset blend)),
          fun x e hx he houtside => answered (hown.trans (commitActive_effective hcell hslots ?outside blend)),
          fun hwithin => ?judged⟩⟩
      case unset =>
        rw [hunset]
        exact effectiveRefusal_unset hgiven
      case outside =>
        rw [he, show givenEffective pres eff = some x from hx]
        exact effectiveRefusal_outside houtside
      case judged =>
        have heff : effectiveRefusal s.lpu.ext (givenEffective pres eff) = none := effectiveRefusal_none hwithin
        refine ⟨fun h => answered (hown.trans (commitActive_pending hcell hslots heff h blend)),
          fun hfree hfull => answered (hown.trans (commitActive_full hcell hslots heff hfree hfull blend)),
          fun hfree hroom hfails => answered (hown.trans ?fails), fun hfree hroom hpasses => answered (hown.trans ?accepted)⟩
        case fails =>
          rw [commitActive_checked hcell hslots heff hfree hroom, show commitCheck _ _ _ = false from hfails]
          rfl
        case accepted =>
          rw [commitActive_checked hcell hslots heff hfree hroom, show commitCheck _ _ _ = true from hpasses]
          rfl

end Sys2Proof.Machine
end

section
/-! SUPPORT. What a step does with the tables, the CERT pin and the operating state: requests act on them through their owners, and beside them there
are only the reset events, the Table Manager's work at an accepted cycle, the CERT pin and the store load. -/

namespace Sys2Proof.Machine

/-- Tables, CERT pin and operating state are as they were. -/
structure TablesIdle (s t : State) : Prop where
  tables : t.tables = s.tables
  cert : t.cert = s.cert
  opState : t.lpu.opState = s.lpu.opState

theorem TablesIdle.refl (s : State) : TablesIdle s s := ⟨rfl, rfl, rfl⟩

theorem TablesIdle.trans {s t u : State} (h : TablesIdle s t) (k : TablesIdle t u) : TablesIdle s u :=
  ⟨k.tables.trans h.tables, k.cert.trans h.cert, k.opState.trans h.opState⟩

theorem OnlyMotion.tablesIdle {s t : State} (h : OnlyMotion s t) : TablesIdle s t := by
  rw [h]
  exact ⟨rfl, rfl, rfl⟩

theorem onLpu_tablesIdle (s : State) {f : Lpu → Lpu} (h : (f s.lpu).opState = s.lpu.opState) : TablesIdle s (s.onLpu f) := ⟨rfl, rfl, h⟩

theorem onSvc_tablesIdle (s : State) (f : Responder → Responder) : TablesIdle s (s.onSvc f) := ⟨rfl, rfl, rfl⟩

theorem clearBuffers_tablesIdle (s : State) : TablesIdle s (clearBuffers s) := ⟨rfl, rfl, rfl⟩

/-- A frame has left its port. -/
theorem outSent_tablesIdle (s : State) (d : Option SentFrame) : TablesIdle s { s with outPass := none, sentD := d } := ⟨rfl, rfl, rfl⟩

theorem returnSent_tablesIdle (s : State) (m : Option SentFrame) : TablesIdle s { s with retPass := none, sentM := m } := ⟨rfl, rfl, rfl⟩

/-- The state is one that requests served by their owners leave, but for what touches none of the three. -/
inductive ServedTo (s : State) : State → Prop
  | refl : ServedTo s s
  | owner {t : State} (r : Request) : ServedTo s t → ServedTo s (own r t).2
  | idle {t u : State} : ServedTo s t → TablesIdle t u → ServedTo s u

theorem TablesIdle.served {s t : State} (h : TablesIdle s t) : ServedTo s t := .idle .refl h

theorem ServedTo.trans {s t u : State} (h : ServedTo s t) (k : ServedTo t u) : ServedTo s u := by
  induction k with
  | refl => exact h
  | owner r _ ih => exact .owner r ih
  | idle _ hidle ih => exact .idle ih hidle

/-- What every request and all idle work keep, requests served keep. -/
theorem ServedTo.keeps {P : State → Prop} (howner : ∀ r s, P s → P (own r s).2) (hidle : ∀ s t, TablesIdle s t → P s → P t) {s t : State}
    (h : ServedTo s t) (hs : P s) : P t := by
  induction h with
  | refl => exact hs
  | owner r _ ih => exact howner r _ ih
  | idle _ hk ih => exact hidle _ _ hk ih

/-- What a step that does not touch the supply does with tables, CERT pin and operating state. -/
inductive TableEvent (s t : State) : Prop
  | served : ServedTo s t → TableEvent s t
  | reset {u : State} (keep : Bool) : ServedTo s u → TablesIdle (resetValues keep u) t → TableEvent s t
  | worked {u : State} (e : Nat) : TablesIdle s u → TablesIdle (tableWork e u) t → TableEvent s t
  | certOn : TablesIdle (withFreezeEntry s { s with cert := true }) t → TableEvent s t
  | certOff : TablesIdle { s with cert := false } t → TableEvent s t
  | loaded : s.lpu.opState = .starting → TablesIdle (completeLoad s) t → TableEvent s t

theorem TableEvent.of_idle {s t : State} (h : TablesIdle s t) : TableEvent s t := .served h.served

theorem TableEvent.idle {s t u : State} (h : TableEvent s t) (k : TablesIdle t u) : TableEvent s u := by
  cases h with
  | served h => exact .served (.idle h k)
  | reset keep h hreset => exact .reset keep h (hreset.trans k)
  | worked e h hwork => exact .worked e h (hwork.trans k)
  | certOn h => exact .certOn (h.trans k)
  | certOff h => exact .certOff (h.trans k)
  | loaded hstarting h => exact .loaded hstarting (h.trans k)

/-! ### Requests and the reply queue -/

/-- The requests that read the tables at most. -/
def leavesTables : Request → Bool
  | .identify | .readStatus | .group _ _ | .readEntry _ _ _ | .traceSet _ _ _ | .readTrace | .storeSave | .restart => true
  | _ => false

theorem own_tablesIdle {r : Request} (h : leavesTables r = true) (s : State) : TablesIdle s (own r s).2 := by
  cases r with
  | identify | readStatus => exact .refl s
  | group g a => exact (ownGroup_only g a s).tablesIdle
  | readEntry t i c =>
    show TablesIdle s (ownReadEntry t i c s).2
    unfold ownReadEntry
    repeat' split
    all_goals exact .refl s
  | traceSet g d en =>
    rw [own, ownTraceSet_only]
    exact ⟨rfl, rfl, rfl⟩
  | readTrace =>
    rw [own, ownReadTrace_only]
    exact ⟨rfl, rfl, rfl⟩
  | storeSave =>
    rw [own, ownStoreSave_only]
    exact ⟨rfl, rfl, rfl⟩
  | restart =>
    rw [own, ownRestart_only]
    exact ⟨rfl, rfl, rfl⟩
  | _ => cases h

theorem linkRestart_tablesIdle (e : ReplyEntry) (rep : Reply) (s : State) : TablesIdle s (linkRestart e rep s) := by
  rw [linkRestart_only]
  exact ⟨rfl, rfl, rfl⟩

theorem serveNow_served (r : Request) (s : State) : ServedTo s (serveNow r s).2 := .idle (.owner r .refl) ⟨rfl, rfl, rfl⟩

theorem serveRow_served (r : Request) (s : State) : ServedTo s (serveRow r s) := by
  unfold serveRow
  split
  · simp only
    split
    · exact .idle (serveNow_served r s) ((onSvc_tablesIdle _ _).trans (linkRestart_tablesIdle _ _ _))
    · exact serveNow_served r s
  · exact .refl

theorem answerOf_served (e : ReplyEntry) (s : State) : ServedTo s (answerOf e s).2 := by
  unfold answerOf
  split
  · exact .refl
  · split
    · exact .idle (serveNow_served _ s) (linkRestart_tablesIdle _ _ _)
    · exact .refl

theorem serveOutstanding_served (s : State) : ServedTo s (serveOutstanding s) :=
  foldl_keeps (P := ServedTo s) (fun t e h => h.trans (answerOf_served e t)) _ .refl

/-- A RESTART takes effect once the requests taken have acted (12 R185). -/
theorem restartEffect_event {s t : State} (h : ServedTo s t) : TableEvent s (restartEffect t) :=
  .reset true (h.trans (serveOutstanding_served t)) ⟨rfl, rfl, rfl⟩

theorem afterQueue_event {s t : State} (h : ServedTo s t) : TableEvent s (afterQueue t) := by
  unfold afterQueue
  split
  · exact restartEffect_event h
  · exact .served h

theorem resultPresent_tablesIdle (e : ReplyEntry) (rep : Reply) (s : State) : TablesIdle s (resultPresent e rep s) := by
  unfold resultPresent
  simp only
  repeat' split
  all_goals exact ⟨rfl, rfl, rfl⟩

theorem completeService_event (n : Nat) (s : State) : TableEvent s (completeService n s) := by
  unfold completeService
  split
  · exact afterQueue_event (.idle (answerOf_served _ s) (resultPresent_tablesIdle _ _ _))
  · exact .served .refl

theorem dropEntry_tablesIdle (e : ReplyEntry) (s : State) : TablesIdle s (dropEntry e s) := by
  unfold dropEntry
  split <;> exact ⟨rfl, rfl, rfl⟩

theorem dropSilently_tablesIdle (e : ReplyEntry) (s : State) : TablesIdle s (dropSilently e s) := by
  unfold dropSilently
  split <;> exact ⟨rfl, rfl, rfl⟩

theorem matchReturn_tablesIdle (cycle : BitVec 16) (s : State) : TablesIdle s (matchReturn cycle s).2 := by
  unfold matchReturn
  split
  · exact foldl_keeps (P := TablesIdle s) (fun t e h => h.trans (dropEntry_tablesIdle e t)) _ (.refl s)
  · exact .refl s

theorem takeFromFrame_tablesIdle (p : Pass) (s : State) : TablesIdle s (takeFromFrame p s) := by
  have hroom : TablesIdle s (makeRoom s) := by
    unfold makeRoom
    repeat' split
    all_goals first | exact .refl s | exact dropEntry_tablesIdle _ s
  unfold takeFromFrame
  split
  · exact hroom.trans ⟨rfl, rfl, rfl⟩
  · exact .refl s

/-! ### Time that passes -/

theorem silenceExpiry_tablesIdle (s : State) : TablesIdle s (silenceExpiry s) := by
  unfold silenceExpiry
  exact (onLpu_tablesIdle s rfl).trans (lineFault_onlyMotion _).tablesIdle

/-- Time that passes does nothing to the tables, but where a RESTART takes effect in it (log 7). -/
theorem elapse_cases (inclusive : Bool) (dt : Nat) (s : State) :
    TablesIdle s (elapse inclusive dt s) ∨ ∃ u, TablesIdle s u ∧ elapse inclusive dt s = restartEffect u := by
  have hsilent (b : Bool) : TablesIdle s (if b then silenceExpiry s else s) := by
    split
    · exact silenceExpiry_tablesIdle s
    · exact .refl s
  unfold elapse
  simp only
  split
  · exact .inr ⟨s, .refl s, rfl⟩
  · split
    · exact .inr ⟨_, hsilent _, rfl⟩
    · exact .inl ((hsilent _).trans ⟨rfl, rfl, rfl⟩)

theorem elapse_event (inclusive : Bool) (dt : Nat) (s : State) : TableEvent s (elapse inclusive dt s) := by
  rcases elapse_cases inclusive dt s with h | ⟨u, hu, h⟩
  · exact .of_idle h
  · rw [h]
    exact restartEffect_event hu.served

/-! ### Frames in passage -/

theorem headerArrives_event (port : Port) (f : LinkFrame) (s : State) : TableEvent s (headerArrives port f s) := by
  have hmatch : TablesIdle s (if (newPass s f).followed then matchReturn (frameCycle f.bytes) s else (none, s)).2 := by
    split
    · exact matchReturn_tablesIdle _ s
    · exact .refl s
  unfold headerArrives
  split
  · cases port with
    | m => exact .of_idle ⟨rfl, rfl, rfl⟩
    | d => exact afterQueue_event (.idle hmatch.served ⟨rfl, rfl, rfl⟩)
  · exact .served .refl

theorem latchFirst_tablesIdle (s : State) : TablesIdle s (latchFirst s) := by
  unfold latchFirst
  repeat' split
  all_goals exact ⟨rfl, rfl, rfl⟩

theorem passOutField_tablesIdle (i : Fin 4) (s : State) : TablesIdle s (passOutField i s) := by
  unfold passOutField
  repeat' split
  all_goals exact ⟨rfl, rfl, rfl⟩

theorem passInField_tablesIdle (i : Fin 4) (s : State) : TablesIdle s (passInField i s) := by
  unfold passInField
  repeat' split
  all_goals exact ⟨rfl, rfl, rfl⟩

theorem passReport_tablesIdle (s : State) : TablesIdle s (passReport s) := by
  unfold passReport
  repeat' split
  all_goals exact ⟨rfl, rfl, rfl⟩

theorem answerFrame_tablesIdle (p : Pass) (e : ReplyEntry) (s : State) : TablesIdle s (answerFrame p e s) := by
  unfold answerFrame
  split
  · exact ⟨rfl, rfl, rfl⟩
  · exact (dropEntry_tablesIdle e s).trans ⟨rfl, rfl, rfl⟩

theorem passService_event (s : State) : TableEvent s (passService s) := by
  unfold passService
  repeat' split
  all_goals first | exact .served .refl | exact afterQueue_event (answerFrame_tablesIdle _ _ s).served

theorem closeOut_event (s : State) : TableEvent s (closeOut s) := by
  unfold closeOut
  split
  · rename_i p _
    have hsent := outSent_tablesIdle s (some (sentFrame p))
    split
    · simp only
      split
      · exact .of_idle hsent
      · split
        · exact afterQueue_event (hsent.trans (takeFromFrame_tablesIdle p _)).served
        · exact .of_idle (hsent.trans (onLpu_tablesIdle _ rfl))
    · exact .served .refl
  · exact .served .refl

theorem cutCheck_tablesIdle (p : Pass) (s : State) : TablesIdle s (cutCheck p s) := by
  unfold cutCheck
  split <;> exact ⟨rfl, rfl, rfl⟩

theorem cutReply_tablesIdle (p : Pass) (s : State) : TablesIdle s (cutReply p s) := by
  unfold cutReply
  repeat' split
  all_goals first | exact .refl s | exact dropSilently_tablesIdle _ s

theorem cutShort_event (port : Port) (s : State) : TableEvent s (cutShort port s) := by
  unfold cutShort
  cases port with
  | m =>
    simp only
    repeat' split
    all_goals first | exact .served .refl | exact .of_idle ((outSent_tablesIdle s _).trans (cutCheck_tablesIdle _ _))
  | d =>
    simp only
    repeat' split
    all_goals first
      | exact .served .refl
      | exact afterQueue_event ((((returnSent_tablesIdle s _).trans (cutCheck_tablesIdle _ _)).trans (cutReply_tablesIdle _ _)).trans
          (clearBuffers_tablesIdle _)).served

/-! ### Acceptance -/

/-- The Table Manager has done its work for a cycle, and nothing else has touched the tables. -/
def WorkedAt (s t : State) : Prop := ∃ e u, TablesIdle s u ∧ TablesIdle (tableWork e u) t

theorem acceptedCycle_worked (order : List (Fin 4)) (e k : Nat) (resync : Bool) {s u : State} (h : TablesIdle s u) :
    WorkedAt s (acceptedCycle order e k resync u) := by
  obtain ⟨-, -, hcert, hlpu, -⟩ := (acceptedCycle_only order e k resync u).fields
  obtain ⟨-, -, hworkCert, hworkLpu, -⟩ := (tableWork_onlyApplied e u).cycle.fields
  exact ⟨e, u, h, acceptedCycle_tables order e k resync u, hcert.trans hworkCert.symm, by rw [hlpu, hworkLpu]⟩

theorem acceptResync_worked (order : List (Fin 4)) (e gap : Nat) (cycle : BitVec 16) (s : State) :
    WorkedAt s (acceptResync order e gap cycle s) := by
  unfold acceptResync
  have hfault := (onLpu_tablesIdle s (f := fun x => { x with flags := { x.flags with resync := true } }) rfl).trans
    (lineFault_onlyMotion _).tablesIdle
  exact acceptedCycle_worked order _ _ _ (hfault.trans (onLpu_tablesIdle _ rfl))

theorem classify_worked (order : List (Fin 4)) (cycle : BitVec 16) (s : State) :
    TablesIdle s (classify order cycle s) ∨ WorkedAt s (classify order cycle s) := by
  unfold classify
  split
  · exact .inr (acceptedCycle_worked order _ _ _ ⟨rfl, rfl, rfl⟩)
  · simp only
    split
    · exact .inr (acceptResync_worked order _ _ cycle s)
    · split
      · exact .inl ⟨rfl, rfl, rfl⟩
      · split
        · exact .inr (acceptedCycle_worked order _ _ _ ⟨rfl, rfl, rfl⟩)
        · exact .inr (acceptResync_worked order _ _ cycle s)

theorem goodReturn_worked (order : List (Fin 4)) (p : Pass) (s : State) :
    TablesIdle s (goodReturn order p s) ∨ (s.lpu.opState = .active ∧ WorkedAt s (goodReturn order p s)) := by
  unfold goodReturn
  split
  · exact .inl ⟨rfl, rfl, rfl⟩
  · split
    · rename_i haccept
      have hactive : s.lpu.opState = .active := by
        unfold mayAccept at haccept
        exact of_decide_eq_true (Bool.and_eq_true_iff.mp haccept).2
      exact (classify_worked order _ s).imp_right fun h => ⟨hactive, h⟩
    · exact .inl (.refl s)

/-- A return check word lets time pass; where no RESTART takes effect in it, the Table Manager may work (01 R14, R17). -/
theorem closeReturn_event (dt : Nat) (order : List (Fin 4)) (s : State) : TableEvent s (closeReturn dt order s) := by
  have helapsed := elapse_event false dt s
  have hcases := elapse_cases false dt s
  unfold closeReturn
  simp only
  generalize elapse false dt s = u at helapsed hcases ⊢
  split
  · rename_i p _
    have hsent := returnSent_tablesIdle u (some (sentFrame p))
    split
    · split
      · exact helapsed.idle (hsent.trans (clearBuffers_tablesIdle _))
      · split
        · rcases goodReturn_worked order p { u with retPass := none, sentM := some (sentFrame p) } with hidle | ⟨hactive, e, v, hv, hwork⟩
          · exact helapsed.idle ((hsent.trans hidle).trans (clearBuffers_tablesIdle _))
          · rcases hcases with hpassed | ⟨w, -, rfl⟩
            · exact .worked e ((hpassed.trans hsent).trans hv) (hwork.trans (clearBuffers_tablesIdle _))
            · exact absurd hactive nofun
        · exact helapsed.idle ((hsent.trans (onLpu_tablesIdle _ rfl)).trans (clearBuffers_tablesIdle _))
    · exact .served .refl
  · exact .served .refl

/-! ### Every command -/

theorem assertReset_event (a b : Nat) (s : State) : TableEvent s (assertReset a b s) := by
  unfold assertReset
  split
  · exact .served .refl
  · split
    · exact .reset false .refl ⟨rfl, rfl, rfl⟩
    · exact .of_idle ⟨rfl, rfl, rfl⟩

theorem loadComplete_event (s : State) : TableEvent s (loadComplete s) := by
  unfold loadComplete
  split
  · rename_i hload
    exact .loaded (of_decide_eq_true (Bool.and_eq_true_iff.mp hload).2) (.refl _)
  · exact .served .refl

theorem traceAppends_tablesIdle (s : State) : TablesIdle s (traceAppends s) := by
  unfold traceAppends
  split <;> exact ⟨rfl, rfl, rfl⟩

theorem saveDone_tablesIdle (v : Bool) (s : State) : TablesIdle s (saveDone v s) := by
  unfold saveDone
  repeat' split
  all_goals exact ⟨rfl, rfl, rfl⟩

theorem silenceEnds_event (s : State) : TableEvent s (silenceEnds s) := by
  unfold silenceEnds
  split
  · exact elapse_event _ _ s
  · exact .served .refl

theorem restartWaitEnds_event (s : State) : TableEvent s (restartWaitEnds s) := by
  unfold restartWaitEnds
  split
  · exact elapse_event _ _ s
  · exact .served .refl

/-- Every command but those of the supply. -/
theorem exec_tableEvent {c : Instr} (hup : c ≠ .powerUp) (hdown : c ≠ .powerDown) (s : State) :
    ∃ t, exec c s = .next t ∧ TableEvent s t := by
  cases c with
  | powerUp => exact absurd rfl hup
  | powerDown => exact absurd rfl hdown
  | resetAssert a b => exact ⟨_, rfl, assertReset_event a b s⟩
  | resetRelease => exact ⟨_, rfl, .of_idle ⟨rfl, rfl, rfl⟩⟩
  | storeLoadComplete => exact ⟨_, rfl, loadComplete_event s⟩
  | passHeader port f => exact ⟨_, rfl, headerArrives_event port f s⟩
  | frameCutShort port => exact ⟨_, rfl, cutShort_event port s⟩
  | firstOutField => exact ⟨_, rfl, .of_idle (latchFirst_tablesIdle s)⟩
  | outFieldPassage i => exact ⟨_, rfl, .of_idle (passOutField_tablesIdle i s)⟩
  | inFieldPassage i => exact ⟨_, rfl, .of_idle (passInField_tablesIdle i s)⟩
  | reportFieldArrival => exact ⟨_, rfl, .of_idle (passReport_tablesIdle s)⟩
  | serviceAreaReturn => exact ⟨_, rfl, passService_event s⟩
  | outboundCheckWord => exact ⟨_, rfl, closeOut_event s⟩
  | serviceComplete n => exact ⟨_, rfl, completeService_event n s⟩
  | returnCheckWord dt order => exact ⟨_, rfl, closeReturn_event dt order s⟩
  | stageTimerExpiry i => exact ⟨_, rfl, .of_idle (stageExpires_onlyMotion i s).tablesIdle⟩
  | loadBlendEnd g => exact ⟨_, rfl, .of_idle (loadBlendEnds_onlyMotion g s).tablesIdle⟩
  | settleTimerExpiry g => exact ⟨_, rfl, .of_idle (settleExpires_onlyMotion g s).tablesIdle⟩
  | trackBlendInEnd g => exact ⟨_, rfl, .of_idle (trackBlendIn_onlyMotion g s).tablesIdle⟩
  | trackBlendOutEnd g => exact ⟨_, rfl, .of_idle (trackBlendOut_onlyMotion g s).tablesIdle⟩
  | traceRecordAppend => exact ⟨_, rfl, .of_idle (traceAppends_tablesIdle s)⟩
  | lineSilenceExpiry => exact ⟨_, rfl, silenceEnds_event s⟩
  | certAssert => exact ⟨_, rfl, .certOn (.refl _)⟩
  | certRelease => exact ⟨_, rfl, .certOff (.refl _)⟩
  | saveComplete v => exact ⟨_, rfl, .of_idle (saveDone_tablesIdle v s)⟩
  | restartEffect => exact ⟨_, rfl, restartWaitEnds_event s⟩
  | _ => exact ⟨_, exec_request rfl s, .served (serveRow_served _ s)⟩

/-- What a step does with tables, CERT pin and operating state, from the state without the command it takes: an event, or a power-up or
power-down, which leaves STARTING. -/
theorem step_tableEvent {s t : State} (h : step s = .next t) :
    TableEvent { s with pending := s.pending.tail } t
      ∨ ((s.pending.head? = some .powerUp ∨ s.pending.head? = some .powerDown) ∧ t.lpu.opState = .starting) := by
  unfold step at h
  split at h
  · rename_i c rest hpending
    rw [hpending]
    by_cases hup : c = .powerUp
    · subst hup
      obtain rfl := Host.Outcome.next.inj h
      exact .inr ⟨.inl rfl, rfl⟩
    · by_cases hdown : c = .powerDown
      · subst hdown
        obtain rfl := Host.Outcome.next.inj h
        exact .inr ⟨.inr rfl, rfl⟩
      · obtain ⟨u, hu, hevent⟩ := exec_tableEvent hup hdown { s with pending := rest }
        obtain rfl : u = t := Host.Outcome.next.inj (hu.symm.trans h)
        exact .inl hevent
  · rename_i hpending
    obtain rfl := Host.Outcome.next.inj h
    rw [hpending]
    left
    have hsame : { s with pending := ([] : List Instr).tail } = s := by rw [List.tail_nil, ← hpending]
    rw [hsame]
    exact elapse_event true 1 s

end Sys2Proof.Machine
end

section
/-! SUPPORT. Locks and the freeze request flag (09 R153 to R156): LOCK alone moves a lock, FREEZE and THAW alone the flag, and a LOCKED_DOWN table
stays so until power. -/

namespace Sys2Proof.Machine

/-- The locks and the freeze request flag are as they were. -/
structure LocksKept (x y : TableManager) : Prop where
  freezeFlag : y.freezeFlag = x.freezeFlag
  lock : ∀ t, (y.ctl.get t).lock = (x.ctl.get t).lock

theorem LocksKept.refl (x : TableManager) : LocksKept x x := ⟨rfl, fun _ => rfl⟩

theorem LocksKept.trans {x y z : TableManager} (h : LocksKept x y) (k : LocksKept y z) : LocksKept x z :=
  ⟨k.freezeFlag.trans h.freezeFlag, fun t => (k.lock t).trans (h.lock t)⟩

theorem LocksKept.of_eq {x y : TableManager} (h : y = x) : LocksKept x y := h ▸ .refl x

/-! ### The Table Manager's work, START and HALT -/

theorem unpin_lock (mask : Byte) (c : Five TableCtl) (t : Table) : ((unpin mask c).get t).lock = (c.get t).lock := by
  rw [unpin_get]
  split <;> rfl

theorem unpinAll_lock (c : Five TableCtl) (t : Table) : ((unpinAll c).get t).lock = (c.get t).lock := by
  rw [unpinAll, Five.get_mapT]

theorem takeLiveDue_locksKept (p : Place) (s : State) : LocksKept s.tables (takeLiveDue p s).tables := by
  rcases takeLiveDue_cases p s with ⟨-, h⟩ | ⟨-, -, h⟩ | ⟨-, -, h⟩ <;> rw [h] <;> exact ⟨rfl, fun _ => rfl⟩

theorem haltLiveDue_locksKept (p : Place) (s : State) : LocksKept s.tables (haltLiveDue p s).tables := by
  rcases haltLiveDue_cases p s with ⟨-, h⟩ | ⟨-, -, h⟩ | ⟨-, -, h⟩ <;> rw [h] <;> exact ⟨rfl, fun _ => rfl⟩

theorem takeRecord_locksKept (r : ChangeRecord) (s : State) : LocksKept s.tables (takeRecord r s).tables := by
  rcases takeRecord_cases r s with ⟨-, h⟩ | ⟨-, h⟩ <;> rw [h] <;> exact ⟨rfl, unpin_lock r.mask s.tables.ctl⟩

theorem takeRecords_locksKept (e : Nat) (l : List ChangeRecord) (s : State) : LocksKept s.tables (takeRecords e l s).tables := by
  induction l generalizing s with
  | nil => exact ⟨rfl, fun _ => rfl⟩
  | cons r rest ih =>
    by_cases hdue : isDue e r = true
    · rw [takeRecords_due hdue]
      exact (takeRecord_locksKept r s).trans (ih _)
    · rw [takeRecords_later hdue]
      exact ⟨rfl, fun _ => rfl⟩

/-- The work of an accepted cycle moves neither a lock nor the flag (08 R147). -/
theorem tableWork_locksKept (e : Nat) (s : State) : LocksKept s.tables (tableWork e s).tables :=
  LocksKept.trans (foldl_keeps (P := fun t => LocksKept s.tables t.tables) (fun t p h => h.trans (takeLiveDue_locksKept p t)) _ (.refl _))
    (takeRecords_locksKept e _ _)

theorem haltRun_locksKept (s : State) : LocksKept s.tables (haltRun s).tables := by
  have htaken : LocksKept s.tables (haltAllLiveDue (runEnds s)).tables :=
    foldl_keeps (P := fun t => LocksKept s.tables t.tables) (fun t p h => h.trans (haltLiveDue_locksKept p t)) _ ⟨rfl, fun _ => rfl⟩
  exact htaken.trans ⟨rfl, unpinAll_lock _⟩

/-! ### Requests -/

theorem ownWriteEntry_locksKept (t i : Byte) (bs : List Byte) (s : State) : LocksKept s.tables (ownWriteEntry t i bs s).2.tables := by
  unfold ownWriteEntry writeAt writePassed
  repeat' split
  all_goals exact ⟨rfl, fun _ => rfl⟩

theorem ownSetLive_locksKept (t v : Byte) (s : State) : LocksKept s.tables (ownSetLive t v s).2.tables := by
  have hput (tb : Table) (b : Bool) (u : Table) :
      ((s.tables.ctl.set tb { s.tables.ctl.get tb with live := b }).get u).lock = (s.tables.ctl.get u).lock := by
    rw [Five.get_set]
    split
    · rename_i hu
      rw [hu]
    · rfl
  unfold ownSetLive
  repeat' split
  all_goals first | exact .refl _ | exact ⟨rfl, hput _ _⟩

theorem ownCommit_locksKept (mask presence : Byte) (effective : BitVec 64) (blend : BitVec 16) (s : State) :
    LocksKept s.tables (ownCommit mask presence effective blend s).2.tables := by
  have hpin (t : Table) : ((pin mask s.tables.ctl).get t).lock = (s.tables.ctl.get t).lock := by
    rw [pin_get]
    split <;> rfl
  have hactive (eff bl : Option Nat) : LocksKept s.tables (commitActive mask eff bl s).2.tables := by
    rcases commitActive_cases mask eff bl s with h | ⟨-, -, h⟩ <;> rw [h]
    · exact .refl _
    · exact ⟨rfl, hpin⟩
  have hbypass (eff bl : Option Nat) : LocksKept s.tables (commitBypass mask eff bl s).2.tables := by
    unfold commitBypass
    split
    · exact .refl _
    · split
      · exact .refl _
      · simp only
        rw [(noteStation_spec mask _).1]
        exact ⟨rfl, fun _ => rfl⟩
  unfold ownCommit
  simp only
  split
  · exact .refl _
  · split
    · exact .refl _
    · split
      · exact hactive _ _
      · exact hbypass _ _

theorem ownCancel_locksKept (mask : Byte) (s : State) : LocksKept s.tables (ownCancel mask s).2.tables := by
  unfold ownCancel
  split
  · exact .refl _
  · refine ⟨rfl, fun t => ?_⟩
    simp only [State.onTables_tables, foldl_unpin_get]

/-- A request other than LOCK, FREEZE and THAW moves neither a lock nor the flag (09 R154, R156). -/
theorem own_locksKept (r : Request) (s : State) :
    LocksKept s.tables (own r s).2.tables ∨ (∃ mask mode, r = .lock mask mode) ∨ r = .freeze ∨ r = .thaw := by
  cases r with
  | lock mask mode => exact .inr (.inl ⟨mask, mode, rfl⟩)
  | freeze => exact .inr (.inr (.inl rfl))
  | thaw => exact .inr (.inr (.inr rfl))
  | identify | readStatus | group | readEntry | traceSet | readTrace | storeSave | restart =>
    exact .inl (.of_eq (own_tablesIdle rfl s).tables)
  | clearFlags m => exact .inl ⟨rfl, fun _ => rfl⟩
  | start =>
    left
    show LocksKept s.tables (ownStart s).2.tables
    unfold ownStart
    repeat' split
    all_goals first | exact .refl _ | exact ⟨rfl, unpinAll_lock s.tables.ctl⟩
  | halt =>
    left
    show LocksKept s.tables (ownHalt s).2.tables
    unfold ownHalt
    repeat' split
    all_goals first | exact .refl _ | exact haltRun_locksKept s
  | writeEntry t i bs => exact .inl (ownWriteEntry_locksKept t i bs s)
  | setLive t v => exact .inl (ownSetLive_locksKept t v s)
  | commit m p e b => exact .inl (ownCommit_locksKept m p e b s)
  | cancel m => exact .inl (ownCancel_locksKept m s)

@[simp] theorem onNamed_get (mask : Byte) (f : TableCtl → TableCtl) (s : State) (t : Table) :
    (onNamed mask f s).tables.ctl.get t = if maskNames mask t then f (s.tables.ctl.get t) else s.tables.ctl.get t :=
  Five.get_mapT _ s.tables.ctl t

/-- LOCK changes nothing, or moves the named tables as one of its modes does (09 R154). -/
theorem ownLock_cases (mask mode : Byte) (s : State) :
    (ownLock mask mode s).2 = s
      ∨ ∃ f ∈ [lockTable, unlockTable, lockDownTable], (ownLock mask mode s).2 = onNamed mask f s := by
  unfold ownLock lockReply
  repeat' split
  all_goals first
    | exact .inl rfl
    | exact .inr ⟨lockTable, by simp, rfl⟩
    | exact .inr ⟨unlockTable, by simp, rfl⟩
    | exact .inr ⟨lockDownTable, by simp, rfl⟩

/-- No mode of LOCK moves a LOCKED_DOWN table, or sets a LIVE flag (09 R153, R154). -/
theorem lockMode_spec {f : TableCtl → TableCtl} (hf : f ∈ [lockTable, unlockTable, lockDownTable]) (c : TableCtl) :
    (c.lock = .lockedDown → f c = c) ∧ (c.live = false → (f c).live = false) := by
  obtain ⟨live, pinned, lock⟩ := c
  simp only [List.mem_cons, List.not_mem_nil, or_false] at hf
  rcases hf with rfl | rfl | rfl <;> cases lock <;> simp [lockTable, unlockTable, lockDownTable]

/-! ### The entry into freeze -/

/-- Freeze was in effect already: no entry is made (09 R157). -/
theorem withFreezeEntry_of_inFreeze {before : State} (h : inFreeze before = true) (after : State) :
    withFreezeEntry before after = after := by
  rw [withFreezeEntry, h]
  rfl

/-- Freeze is not in effect afterwards: no entry is made (09 R157). -/
theorem withFreezeEntry_of_not_inFreeze (before : State) {after : State} (h : inFreeze after = false) :
    withFreezeEntry before after = after := by
  rw [withFreezeEntry, h, Bool.and_false]
  rfl

/-- Freeze comes into effect: the entry is made (09 R157). -/
theorem withFreezeEntry_enters {before after : State} (hb : inFreeze before = false) (ha : inFreeze after = true) :
    withFreezeEntry before after = freezeEntry after := by
  rw [withFreezeEntry, hb, ha]
  rfl

theorem withFreezeEntry_cases (before after : State) :
    withFreezeEntry before after = after ∨ withFreezeEntry before after = freezeEntry after := by
  unfold withFreezeEntry
  split
  · exact .inr rfl
  · exact .inl rfl

/-- The entry into freeze, in one update (09 R157). -/
theorem freezeEntry_eq (s : State) : freezeEntry s = { s with tables := { s.tables with
    changes := [], due := LiveDue.none
    ctl := s.tables.ctl.mapT fun _ c => { c with live := false, pinned := false }
    flags := { s.tables.flags with
      pendingDropped := s.tables.flags.pendingDropped || !s.tables.changes.isEmpty || s.tables.due.any } } } := rfl

@[simp] theorem freezeEntry_get (s : State) (t : Table) :
    (freezeEntry s).tables.ctl.get t = { s.tables.ctl.get t with live := false, pinned := false } := by
  rw [freezeEntry_eq, Five.get_mapT]

theorem freezeEntry_locksKept (s : State) : LocksKept s.tables (freezeEntry s).tables :=
  ⟨rfl, fun t => by rw [freezeEntry_get]⟩

theorem freezeEntry_freezeOk (s : State) : FreezeOk (freezeEntry s) :=
  fun _ => ⟨rfl, rfl, fun t => congrArg TableCtl.live (freezeEntry_get s t)⟩

/-- What may complete the freeze condition leaves nothing pending in freeze, where it kept that of a freeze in effect. -/
theorem withFreezeEntry_freezeOk {before after : State} (h : inFreeze before = true → FreezeOk after) :
    FreezeOk (withFreezeEntry before after) := by
  cases hb : inFreeze before
  · cases ha : inFreeze after
    · rw [withFreezeEntry_of_not_inFreeze before ha]
      intro hf
      rw [ha] at hf
      cases hf
    · rw [withFreezeEntry_enters hb ha]
      exact freezeEntry_freezeOk after
  · rw [withFreezeEntry_of_inFreeze hb]
    exact h hb

/-! ### LOCKED_DOWN tables -/

/-- A table that was LOCKED_DOWN is so. -/
def DownKept (x y : TableManager) : Prop := ∀ t, (x.ctl.get t).lock = .lockedDown → (y.ctl.get t).lock = .lockedDown

theorem LocksKept.down {x y : TableManager} (h : LocksKept x y) : DownKept x y := fun t ht => (h.lock t).trans ht

theorem DownKept.trans {x y z : TableManager} (h : DownKept x y) (k : DownKept y z) : DownKept x z := fun t ht => k t (h t ht)

theorem withFreezeEntry_down {x : TableManager} (before : State) {after : State} (h : DownKept x after.tables) :
    DownKept x (withFreezeEntry before after).tables := by
  rcases withFreezeEntry_cases before after with e | e <;> rw [e]
  · exact h
  · exact h.trans (freezeEntry_locksKept after).down

theorem ownLock_down (mask mode : Byte) (s : State) : DownKept s.tables (ownLock mask mode s).2.tables := by
  rcases ownLock_cases mask mode s with h | ⟨f, hf, h⟩ <;> rw [h]
  · exact fun _ ht => ht
  · intro t ht
    rw [onNamed_get]
    split
    · rwa [(lockMode_spec hf _).1 ht]
    · exact ht

/-- No request ends LOCKED_DOWN (09 R154). -/
theorem own_down (r : Request) (s : State) : DownKept s.tables (own r s).2.tables := by
  rcases own_locksKept r s with h | ⟨mask, mode, rfl⟩ | rfl | rfl
  · exact h.down
  · exact ownLock_down mask mode s
  · exact withFreezeEntry_down s fun _ ht => ht
  · show DownKept s.tables (ownThaw s).2.tables
    unfold ownThaw
    split <;> exact fun _ ht => ht

theorem resetValues_down (keep : Bool) (s : State) : DownKept s.tables (resetValues keep s).tables := fun t ht => by
  rw [resetValues_ctl]
  exact ht

theorem completeLoad_down (s : State) : DownKept s.tables (completeLoad s).tables := by
  refine withFreezeEntry_down s ?_
  unfold loadTables
  split <;> exact fun _ ht => ht

/-- Nothing but the supply ends LOCKED_DOWN (09 R153). -/
theorem TableEvent.down {s t : State} (h : TableEvent s t) : DownKept s.tables t.tables := by
  have hidle {u v : State} (k : TablesIdle u v) (hu : DownKept s.tables u.tables) : DownKept s.tables v.tables := by rwa [k.tables]
  have hserved {u : State} (k : ServedTo s u) : DownKept s.tables u.tables :=
    k.keeps (P := fun v => DownKept s.tables v.tables) (fun r v hv => hv.trans (own_down r v)) (fun _ _ => hidle) fun _ ht => ht
  cases h with
  | served k => exact hserved k
  | reset keep k hreset => exact hidle hreset ((hserved k).trans (resetValues_down keep _))
  | worked e hbefore hwork => exact hidle hwork ((hidle hbefore fun _ ht => ht).trans (tableWork_locksKept e _).down)
  | certOn k => exact hidle k (withFreezeEntry_down s fun _ ht => ht)
  | certOff k => exact hidle k fun _ ht => ht
  | loaded _ k => exact hidle k (completeLoad_down s)

end Sys2Proof.Machine
end

section
/-! SUPPORT. LOCK (09 R154): its judgement, and what each mode does to a table. -/

namespace Sys2Proof.Machine

/-- LOCK names no table, or what is no table (09 R154; log 13). -/
theorem lockMalformed_iff (mask : Byte) : (decide (mask = 0) || !maskInRange mask) = true ↔ mask = 0 ∨ 32 ≤ mask.toNat := by
  simp [maskInRange]

theorem ownLock_malformed {mask : Byte} (h : mask = 0 ∨ 32 ≤ mask.toNat) (mode : Byte) (s : State) :
    own (.lock mask mode) s = lockReply .invalid s :=
  if_pos ((lockMalformed_iff mask).mpr h)

section

variable {mask : Byte} (hmask : mask ≠ 0) (hrange : mask.toNat < 32) {s : State}

include hmask hrange

theorem not_lockMalformed : ¬ (decide (mask = 0) || !maskInRange mask) = true := by
  rw [lockMalformed_iff]
  rintro (h | h)
  · exact hmask h
  · omega

theorem ownLock_locks : own (.lock mask 0) s = lockReply .done (onNamed mask lockTable s) := if_neg (not_lockMalformed hmask hrange)

theorem ownLock_locksDown : own (.lock mask 2) s = lockReply .done (onNamed mask lockDownTable s) :=
  if_neg (not_lockMalformed hmask hrange)

theorem ownLock_unlock : own (.lock mask 1) s =
    if inFreeze s then lockReply .barred s
    else if anyNamed mask (fun t => decide ((s.tables.ctl.get t).lock = .lockedDown)) then lockReply .barred s
    else lockReply .done (onNamed mask unlockTable s) :=
  if_neg (not_lockMalformed hmask hrange)

theorem ownLock_unlocks (hfreeze : inFreeze s = false)
    (hnone : ∀ t, maskNames mask t = true → (s.tables.ctl.get t).lock ≠ .lockedDown) :
    own (.lock mask 1) s = lockReply .done (onNamed mask unlockTable s) := by
  have hdown : ¬ anyNamed mask (fun t => decide ((s.tables.ctl.get t).lock = .lockedDown)) = true := by
    rw [anyNamed_iff]
    rintro ⟨t, hnamed, hlocked⟩
    exact hnone t hnamed (of_decide_eq_true hlocked)
  rw [ownLock_unlock hmask hrange, hfreeze, if_neg hdown]
  rfl

theorem ownLock_barred (h : inFreeze s = true ∨ ∃ t, maskNames mask t = true ∧ (s.tables.ctl.get t).lock = .lockedDown) :
    own (.lock mask 1) s = lockReply .barred s := by
  rw [ownLock_unlock hmask hrange]
  split
  · rfl
  · rename_i hfreeze
    obtain ⟨t, hnamed, hlocked⟩ := h.resolve_left hfreeze
    exact if_pos ((anyNamed_iff _ _).mpr ⟨t, hnamed, decide_eq_true hlocked⟩)

end

theorem lockTable_eq : lockTable = fun c => if c.lock = .unlocked then { c with lock := .locked, live := false } else c := by
  funext ⟨live, pinned, lock⟩
  cases lock <;> rfl

theorem lockDownTable_eq : lockDownTable = fun c =>
    if c.lock = .unlocked then { c with lock := .lockedDown, live := false } else { c with lock := .lockedDown } := by
  funext ⟨live, pinned, lock⟩
  cases lock <;> rfl

theorem unlockTable_eq {c : TableCtl} (h : c.lock ≠ .lockedDown) : unlockTable c = { c with lock := .unlocked } := by
  obtain ⟨live, pinned, lock⟩ := c
  cases lock with
  | lockedDown => exact absurd rfl h
  | unlocked | locked => rfl

/-- Where no named table is LOCKED_DOWN, UNLOCK leaves every named table UNLOCKED (09 R154). -/
theorem onNamed_unlockTable {mask : Byte} {s : State} (h : ∀ t, maskNames mask t = true → (s.tables.ctl.get t).lock ≠ .lockedDown) :
    onNamed mask unlockTable s = onNamed mask (fun c => { c with lock := .unlocked }) s := by
  have hctl : (onNamed mask unlockTable s).tables.ctl = (onNamed mask (fun c => { c with lock := .unlocked }) s).tables.ctl :=
    Five.ext_get fun t => by
      rw [onNamed_get, onNamed_get]
      split
      · rename_i hnamed
        exact unlockTable_eq (h t hnamed)
      · rfl
  exact congrArg (fun c => s.onTables fun x => { x with ctl := c }) hctl

/-- Settles O58: each mode at the named tables, UNLOCK where none of them is LOCKED_DOWN, and no event of a step but the supply ends LOCKED_DOWN
(`TableEvent.down`). -/
theorem locksMoveAsTheTableGives : Obligations.LocksMoveAsTheTableGives := by
  refine ⟨fun s mask htakes => ?request, fun _ => rfl, fun s t tb hlocked hup hdown hstep => ?kept⟩
  case request =>
    intro named answers
    have answered {c : Instr} {mode : Byte} {code : ResultCode} {u : State} (hc : Laws.requestIn c = some (.lock mask mode))
        (h : own (.lock mask mode) s = lockReply code u) : answers c code u := exec_replied hc htakes h nofun
    refine ⟨fun hmask hrange => ⟨answered rfl ?locks, answered rfl ?locksDown, fun hfreeze hnone => answered rfl ?unlocks,
        fun h => answered rfl (ownLock_barred hmask hrange h)⟩,
      fun h => ⟨answered rfl (ownLock_malformed h 0 s), answered rfl (ownLock_malformed h 1 s), answered rfl (ownLock_malformed h 2 s)⟩⟩
    case locks =>
      rw [ownLock_locks hmask hrange, lockTable_eq]
      rfl
    case locksDown =>
      rw [ownLock_locksDown hmask hrange, lockDownTable_eq]
      rfl
    case unlocks =>
      rw [ownLock_unlocks hmask hrange hfreeze hnone, onNamed_unlockTable hnone]
      rfl
  case kept =>
    rcases step_tableEvent hstep with hevent | ⟨hsupply | hsupply, -⟩
    · exact hevent.down tb hlocked
    · exact absurd hsupply hup
    · exact absurd hsupply hdown

end Sys2Proof.Machine
end

section
/-! SUPPORT. Certification freeze in effect (09 R155 to R158): nothing is pending, so that the Table Manager has no work, and every request that
would change a copy is refused. -/

namespace Sys2Proof.Machine

theorem tableWork_inFreeze (e : Nat) (s : State) : inFreeze (tableWork e s) = inFreeze s := by
  obtain ⟨-, -, hcert, hlpu, -⟩ := (tableWork_onlyApplied e s).cycle.fields
  unfold inFreeze
  rw [hcert, hlpu, (tableWork_locksKept e s).freezeFlag]

theorem TablesIdle.inFreeze_eq {s t : State} (h : TablesIdle s t) : inFreeze t = inFreeze s := by
  unfold inFreeze
  rw [h.tables, h.cert, h.opState]

theorem not_inFreeze_of_starting {s : State} (h : s.lpu.opState = .starting) : inFreeze s = false := by
  rw [inFreeze, h]

theorem not_inFreeze_of_cert {s : State} (h : s.cert = false) : inFreeze s = false := by
  rw [← Bool.not_eq_true, inFreeze_iff]
  rintro ⟨-, hcert, -⟩
  exact absurd (h.symm.trans hcert) nofun

theorem not_inFreeze_of_flag {s : State} (h : s.tables.freezeFlag = false) : inFreeze s = false := by
  rw [← Bool.not_eq_true, inFreeze_iff]
  rintro ⟨-, -, hflag⟩
  exact absurd (h.symm.trans hflag) nofun

/-- Freeze is in effect with nothing pending, and the copies are the given ones. -/
structure Frozen (active staging : Tables) (s : State) : Prop where
  inEffect : inFreeze s = true
  changes : s.tables.changes = []
  due : s.tables.due = LiveDue.none
  live : ∀ t, (s.tables.ctl.get t).live = false
  active : s.tables.active = active
  staging : s.tables.staging = staging

theorem FreezeOk.frozen {s : State} (h : FreezeOk s) (hf : inFreeze s = true) : Frozen s.tables.active s.tables.staging s := by
  obtain ⟨hchanges, hdue, hlive⟩ := h hf
  exact ⟨hf, hchanges, hdue, hlive, rfl, rfl⟩

section

variable {a b : Tables} {s t : State}

theorem Frozen.freezeOk (h : Frozen a b s) : FreezeOk s := fun _ => ⟨h.changes, h.due, h.live⟩

theorem Frozen.idle (h : Frozen a b s) (k : TablesIdle s t) : Frozen a b t := by
  obtain ⟨hf, hchanges, hdue, hlive, hactive, hstaging⟩ := h
  rw [← k.inFreeze_eq] at hf
  rw [← k.tables] at hchanges hdue hlive hactive hstaging
  exact ⟨hf, hchanges, hdue, hlive, hactive, hstaging⟩

/-- What freeze in effect says of operating state, CERT pin and request flag (09 R155). -/
theorem Frozen.condition (h : Frozen a b s) : s.lpu.opState ≠ .starting ∧ s.cert = true ∧ s.tables.freezeFlag = true :=
  (inFreeze_iff s).mp h.inEffect

theorem Frozen.unpinned (h : Frozen a b s) (t : Table) : ((unpinAll s.tables.ctl).get t).live = false := by
  rw [unpinAll, Five.get_mapT]
  exact h.live t

/-- With nothing pending an accepted cycle finds no work on the tables (08 R147). -/
theorem Frozen.tableWork (h : Frozen a b s) (e : Nat) : tableWork e s = s :=
  tableWork_nothing h.due fun r hr => by rw [h.changes] at hr; cases hr

/-! ### Requests -/

theorem Frozen.start (h : Frozen a b s) : Frozen a b (ownStart s).2 := by
  obtain ⟨-, hcert, hflag⟩ := h.condition
  unfold ownStart
  repeat' split
  all_goals first
    | exact h
    | exact ⟨(inFreeze_iff (startRun s)).mpr ⟨nofun, hcert, hflag⟩, rfl, rfl, h.unpinned, h.active, h.staging⟩

/-- With no mark set a HALT takes none (08 R141). -/
theorem Frozen.halt (h : Frozen a b s) : Frozen a b (ownHalt s).2 := by
  obtain ⟨-, hcert, hflag⟩ := h.condition
  have hrun : haltRun s = (runEnds s).onTables dropChanges := by
    rw [haltRun, haltAllLiveDue_unmarked (s := runEnds s) h.due]
  have hhalted : Frozen a b (haltRun s) := by
    rw [hrun]
    exact ⟨(inFreeze_iff _).mpr ⟨nofun, hcert, hflag⟩, rfl, h.due, h.unpinned, h.active, h.staging⟩
  unfold ownHalt
  repeat' split
  all_goals first | exact h | exact hhalted

theorem Frozen.writeEntry (h : Frozen a b s) (t i : Byte) (bs : List Byte) : Frozen a b (ownWriteEntry t i bs s).2 := by
  unfold ownWriteEntry
  repeat' split
  all_goals first
    | exact h
    | rw [writeAt_barred (.inr h.inEffect)]; exact h

/-- A LIVE flag is set only outside freeze (08 R142). -/
theorem Frozen.setLive (h : Frozen a b s) (t v : Byte) : Frozen a b (ownSetLive t v s).2 := by
  have hoff (tb : Table) : Frozen a b (s.onTables fun x => { x with ctl := x.ctl.set tb { x.ctl.get tb with live := false } }) := by
    refine ⟨h.inEffect, h.changes, h.due, fun u => ?_, h.active, h.staging⟩
    rw [State.onTables_tables, Five.get_set]
    split
    · rfl
    · exact h.live u
  have hbarred (tb : Table) : (isLocked s tb || inFreeze s) = true := by rw [h.inEffect, Bool.or_true]
  unfold ownSetLive
  simp only [hbarred, if_true]
  repeat' split
  all_goals first | exact h | exact hoff _

theorem Frozen.commit (h : Frozen a b s) (mask presence : Byte) (effective : BitVec 64) (blend : BitVec 16) :
    Frozen a b (ownCommit mask presence effective blend s).2 := by
  have hbarred : (anyNamed mask (isLocked s) || inFreeze s) = true := by rw [h.inEffect, Bool.or_true]
  unfold ownCommit
  simp only [hbarred, if_true]
  split <;> exact h

/-- An empty list has no record to cancel (08 R146). -/
theorem Frozen.cancel (h : Frozen a b s) (mask : Byte) : Frozen a b (ownCancel mask s).2 := by
  unfold ownCancel
  split
  · exact h
  · refine ⟨h.inEffect, ?_, h.due, fun t => ?_, h.active, h.staging⟩
    · simp only [State.onTables_tables, h.changes, List.filter_nil]
    · simp only [State.onTables_tables, h.changes, List.filter_nil, List.foldl_nil]
      exact h.live t

theorem Frozen.lock (h : Frozen a b s) (mask mode : Byte) : Frozen a b (ownLock mask mode s).2 := by
  rcases ownLock_cases mask mode s with e | ⟨f, hf, e⟩ <;> rw [e]
  · exact h
  · refine ⟨h.inEffect, h.changes, h.due, fun t => ?_, h.active, h.staging⟩
    rw [onNamed_get]
    split
    · exact (lockMode_spec hf _).2 (h.live t)
    · exact h.live t

/-- FREEZE in freeze sets a flag that is set (09 R156). -/
theorem Frozen.freeze (h : Frozen a b s) : Frozen a b (ownFreeze s).2 := by
  have hown : (ownFreeze s).2 = s.onTables fun x => { x with freezeFlag := true } := withFreezeEntry_of_inFreeze h.inEffect _
  obtain ⟨hstate, hcert, -⟩ := h.condition
  rw [hown]
  exact ⟨(inFreeze_iff _).mpr ⟨hstate, hcert, rfl⟩, h.changes, h.due, h.live, h.active, h.staging⟩

/-- THAW is refused while CERT is asserted (09 R156). -/
theorem Frozen.thaw (h : Frozen a b s) : Frozen a b (ownThaw s).2 := by
  obtain ⟨-, hcert, -⟩ := h.condition
  have hown : ownThaw s = freezeReply .barred s := if_pos hcert
  rw [hown]
  exact h

/-- No request ends freeze, leaves something pending in it or changes a copy (09 R158). -/
theorem Frozen.own (r : Request) (h : Frozen a b s) : Frozen a b (own r s).2 := by
  cases r with
  | identify | readStatus | group | readEntry | traceSet | readTrace | storeSave | restart => exact h.idle (own_tablesIdle rfl s)
  | clearFlags m => exact ⟨h.inEffect, h.changes, h.due, h.live, h.active, h.staging⟩
  | start => exact h.start
  | halt => exact h.halt
  | writeEntry t i bs => exact h.writeEntry t i bs
  | setLive t v => exact h.setLive t v
  | commit m p e bl => exact h.commit m p e bl
  | cancel m => exact h.cancel m
  | lock m md => exact h.lock m md
  | freeze => exact h.freeze
  | thaw => exact h.thaw

theorem Frozen.served (h : Frozen a b s) (k : ServedTo s t) : Frozen a b t :=
  k.keeps (fun r _ hs => hs.own r) (fun _ _ hk hs => hs.idle hk) h

/-- Nothing that a step does but the supply changes a copy while freeze is in effect (09 R158). -/
theorem Frozen.copies (h : Frozen a b s) (k : TableEvent s t) : t.tables.active = a ∧ t.tables.staging = b := by
  have hidle {u : State} (k : TablesIdle u t) (hu : u.tables.active = a ∧ u.tables.staging = b) :
      t.tables.active = a ∧ t.tables.staging = b := by rwa [k.tables]
  cases k with
  | served k => exact ⟨(h.served k).active, (h.served k).staging⟩
  | reset keep k hreset => exact hidle hreset ⟨(h.served k).active, (h.served k).staging⟩
  | worked e hbefore hwork =>
    rw [(h.idle hbefore).tableWork] at hwork
    exact hidle (hbefore.trans hwork) ⟨h.active, h.staging⟩
  | certOn k =>
    rw [withFreezeEntry_of_inFreeze h.inEffect] at k
    exact hidle k ⟨h.active, h.staging⟩
  | certOff k => exact hidle k ⟨h.active, h.staging⟩
  | loaded hstarting _ => exact absurd hstarting h.condition.1

end

/-! ### Nothing is pending in freeze -/

section

variable {s t : State}

theorem freezeOk_of_not_inFreeze (h : inFreeze s = false) : FreezeOk s := fun hf => absurd (h.symm.trans hf) nofun

theorem FreezeOk.idle (h : FreezeOk s) (k : TablesIdle s t) : FreezeOk t := fun hf => by
  rw [k.inFreeze_eq] at hf
  exact ((h.frozen hf).idle k).freezeOk ((h.frozen hf).idle k).inEffect

theorem ownCommit_starting (mask presence : Byte) (effective : BitVec 64) (blend : BitVec 16) (h : s.lpu.opState = .starting) :
    (ownCommit mask presence effective blend s).2.lpu.opState = .starting := by
  unfold ownCommit commitBypass
  simp only [h]
  repeat' split
  all_goals first
    | exact h
    | rw [(noteStation_spec mask _).1]; exact h

/-- No request brings the part out of STARTING (01 R7). -/
theorem own_starting (r : Request) {s : State} (h : s.lpu.opState = .starting) : (own r s).2.lpu.opState = .starting := by
  have happlied {u : State} (k : OnlyApplied s u) : u.lpu.opState = .starting := by
    rw [k]
    exact h
  cases r with
  | identify | readStatus | group | readEntry | traceSet | readTrace | storeSave | restart => exact (own_tablesIdle rfl s).opState.trans h
  | clearFlags m => exact h
  | start => simp only [own, ownStart, h, refuse]
  | halt => simp only [own, ownHalt, h, refuse]
  | writeEntry t i bs => exact happlied (ownWriteEntry_only t i bs s)
  | setLive t v => exact happlied (ownSetLive_only t v s)
  | commit m p e bl => exact ownCommit_starting m p e bl h
  | cancel m => exact happlied (ownCancel_only m s)
  | lock m md => exact happlied (ownLock_only m md s)
  | freeze => exact happlied (ownFreeze_only s)
  | thaw => exact happlied (ownThaw_only s)

/-- Outside freeze, FREEZE alone can bring freeze into effect among the requests (09 R156, R157). -/
theorem own_not_inFreeze {r : Request} (hr : r ≠ .freeze) (h : inFreeze s = false) : inFreeze (own r s).2 = false := by
  rw [← Bool.not_eq_true, inFreeze_iff]
  rintro ⟨hstate, hcert, hflag⟩
  have hbefore : s.tables.freezeFlag = true := by
    rcases own_locksKept r s with hkept | ⟨mask, mode, rfl⟩ | rfl | rfl
    · exact hkept.freezeFlag.symm.trans hflag
    · rcases ownLock_cases mask mode s with e | ⟨f, -, e⟩ <;> rw [own, e] at hflag <;> exact hflag
    · exact absurd rfl hr
    · have hthaw : s.cert = true := (own_kept .thaw s).cert.symm.trans hcert
      rwa [own, ownThaw, if_pos hthaw] at hflag
  have hin : inFreeze s = true :=
    (inFreeze_iff s).mpr ⟨fun hstarting => hstate (own_starting r hstarting), (own_kept r s).cert.symm.trans hcert, hbefore⟩
  exact absurd (h.symm.trans hin) nofun

/-- Every request leaves nothing pending in freeze (09 R157, R158). -/
theorem own_freezeOk (r : Request) (h : FreezeOk s) : FreezeOk (own r s).2 := by
  cases hf : inFreeze s with
  | true => exact ((h.frozen hf).own r).freezeOk
  | false =>
    by_cases hr : r = .freeze
    · subst hr
      exact withFreezeEntry_freezeOk fun hin => absurd (hf.symm.trans hin) nofun
    · exact freezeOk_of_not_inFreeze (own_not_inFreeze hr hf)

theorem TableEvent.freezeOk (k : TableEvent s t) (h : FreezeOk s) : FreezeOk t := by
  cases k with
  | served k => exact k.keeps (fun r _ => own_freezeOk r) (fun _ _ hk hs => hs.idle hk) h
  | reset keep _ hreset =>
    refine FreezeOk.idle (freezeOk_of_not_inFreeze (not_inFreeze_of_starting ?_)) hreset
    cases keep <;> rfl
  | @worked u e hbefore hwork =>
    have hu := h.idle hbefore
    refine FreezeOk.idle (fun hf => ?_) hwork
    have hfrozen := hu.frozen ((tableWork_inFreeze e u).symm.trans hf)
    rw [hfrozen.tableWork] at hf ⊢
    exact hu hf
  | certOn k => 
    have hkept (hin : inFreeze s = true) : FreezeOk { s with cert := true } := fun _ => h hin
    exact (withFreezeEntry_freezeOk hkept).idle k
  | certOff k => exact FreezeOk.idle (freezeOk_of_not_inFreeze (not_inFreeze_of_cert rfl)) k
  | loaded hstarting k =>
    exact (withFreezeEntry_freezeOk fun hin => absurd ((not_inFreeze_of_starting hstarting).symm.trans hin) nofun).idle k

end

/-- Settles O14: in freeze every request that would change a copy is refused (`Frozen.own`), the accepted cycle finds nothing pending
(`Frozen.tableWork`), and a reset event keeps the copies. -/
theorem freezeHoldsActiveCopies : Obligations.FreezeHoldsActiveCopies := by
  refine ⟨fun s t hok hstep => ?_, fun s t hok hf hup hdown hstep => ?_⟩
  · rcases step_tableEvent hstep with hevent | ⟨-, hstarting⟩
    · exact hevent.freezeOk hok
    · exact freezeOk_of_not_inFreeze (not_inFreeze_of_starting hstarting)
  · rcases step_tableEvent hstep with hevent | ⟨hsupply | hsupply, -⟩
    · exact (FreezeOk.frozen (s := { s with pending := s.pending.tail }) hok hf).copies hevent
    · exact absurd hsupply hup
    · exact absurd hsupply hdown

end Sys2Proof.Machine
end

section
/-! SUPPORT. FREEZE, THAW, the CERT pin and the load (09 R155 to R157, R159): who brings the entry into freeze, and the freeze
byte each reply carries. -/

namespace Sys2Proof.Machine

theorem takesRequests_not_starting {s : State} (h : takesRequests s = true) : s.lpu.opState ≠ .starting := by
  intro hstarting
  simp [takesRequests, hstarting] at h

/-- The store load gives both copies the same tables, and touches neither the CERT pin nor the freeze request flag (12 R183). -/
theorem loadTables_spec (s : State) :
    (loadTables s).tables.active = (validImage s.store.image).getD factoryTables
      ∧ (loadTables s).tables.staging = (loadTables s).tables.active
      ∧ (loadTables s).cert = s.cert ∧ (loadTables s).tables.freezeFlag = s.tables.freezeFlag := by
  unfold loadTables
  cases validImage s.store.image <;> exact ⟨rfl, rfl, rfl, rfl⟩

/-- A load that completes with the freeze condition met brings the entry (12 R183, 09 R157). -/
theorem completeLoad_enters {s : State} (hstarting : s.lpu.opState = .starting) (hcert : s.cert = true)
    (hflag : s.tables.freezeFlag = true) :
    completeLoad s = freezeEntry ((loadTables s).onLpu fun x => { x with opState := .bypass })
      ∧ inFreeze (completeLoad s) = true := by
  obtain ⟨-, -, hloadCert, hloadFlag⟩ := loadTables_spec s
  have hin : inFreeze ((loadTables s).onLpu fun x => { x with opState := .bypass }) = true :=
    (inFreeze_iff _).mpr ⟨nofun, hloadCert.trans hcert, hloadFlag.trans hflag⟩
  have henters := withFreezeEntry_enters (not_inFreeze_of_starting hstarting) hin
  exact ⟨henters, (congrArg inFreeze henters).trans hin⟩

theorem loadComplete_of_starting {s : State} (hp : s.powered = true) (hr : s.resetLine = false) (hs : s.lpu.opState = .starting) :
    loadComplete s = completeLoad s := by
  simp [loadComplete, hp, hr, hs]

/-! ### FREEZE and THAW -/

/-- FREEZE with CERT released sets the flag alone (09 R156). -/
theorem ownFreeze_released {s : State} (h : s.cert = false) :
    own .freeze s = freezeReply .done (s.onTables fun x => { x with freezeFlag := true }) :=
  congrArg (freezeReply .done) (withFreezeEntry_of_not_inFreeze s (not_inFreeze_of_cert h))

/-- FREEZE in freeze changes nothing (09 R156). -/
theorem ownFreeze_again {s : State} (h : inFreeze s = true) : own .freeze s = freezeReply .done s := by
  have hsame : (s.onTables fun x => { x with freezeFlag := true }) = s := by
    obtain ⟨-, -, hflag⟩ := (inFreeze_iff s).mp h
    show { s with tables := { s.tables with freezeFlag := true } } = s
    rw [← hflag]
  rw [own, ownFreeze, withFreezeEntry_of_inFreeze h, hsame]

/-- FREEZE with CERT asserted brings the entry into freeze where it sets the flag (09 R156, R157). -/
theorem ownFreeze_enters {s : State} (hstate : s.lpu.opState ≠ .starting) (hcert : s.cert = true) (hflag : s.tables.freezeFlag = false) :
    own .freeze s = freezeReply .done (freezeEntry (s.onTables fun x => { x with freezeFlag := true })) :=
  congrArg (freezeReply .done) (withFreezeEntry_enters (not_inFreeze_of_flag hflag) ((inFreeze_iff _).mpr ⟨hstate, hcert, rfl⟩))

/-- The freeze byte in freeze: request flag, line and freeze in effect (09 R161). -/
theorem freezeReply_inFreeze {s : State} (h : inFreeze s = true) (c : ResultCode) : freezeReply c s = (⟨c, [7]⟩, s) := by
  obtain ⟨-, hcert, hflag⟩ := (inFreeze_iff s).mp h
  rw [freezeReply, freezeByte, h, hcert, hflag]
  rfl

theorem freezeReply_released {s : State} (h : s.cert = false) (c : ResultCode) :
    freezeReply c s = (⟨c, [if s.tables.freezeFlag then 1 else 0]⟩, s) := by
  rw [freezeReply, freezeByte, h, not_inFreeze_of_cert h]
  cases s.tables.freezeFlag <;> rfl

theorem Replied.inFreeze_eq {rep : Reply} {u t : State} (h : Replied rep u t) : inFreeze t = inFreeze u := by
  obtain ⟨ht, -⟩ := h
  rw [ht]
  rfl

/-- Settles O13: each of the three events completes the condition and so brings the entry (`withFreezeEntry_enters`), the release of CERT ends
freeze and does nothing else, and FREEZE and THAW reply with the byte of the state they leave. -/
theorem freezeComesAndGoes : Obligations.FreezeComesAndGoes := by
  refine ⟨⟨fun s hstate hcert hflag => ?asserted, fun s hflag => ?noFlag, fun s hp hr hstarting hcert hflag => ?loaded,
    fun s => ⟨rfl, not_inFreeze_of_cert rfl⟩⟩, fun s htakes => ⟨fun hcert => ?sets, fun hcert => ?freezes, fun hcert => ?clears,
    fun hcert => ?barred⟩⟩
  case asserted =>
    have henters := withFreezeEntry_enters (not_inFreeze_of_cert hcert)
      ((inFreeze_iff { s with cert := true }).mpr ⟨hstate, rfl, hflag⟩)
    exact congrArg Host.Outcome.next (henters.trans (freezeEntry_eq _))
  case noFlag =>
    exact congrArg Host.Outcome.next (withFreezeEntry_of_not_inFreeze s (not_inFreeze_of_flag hflag))
  case loaded =>
    obtain ⟨hentered, hin⟩ := completeLoad_enters hstarting hcert hflag
    obtain ⟨hactive, hstaging, -⟩ := loadTables_spec s
    refine ⟨completeLoad s, congrArg Host.Outcome.next (loadComplete_of_starting hp hr hstarting), hin, ?_⟩
    rw [hentered]
    exact ⟨freezeEntry_freezeOk _, hstaging, hactive⟩
  case sets =>
    exact exec_replied rfl htakes ((ownFreeze_released hcert).trans (freezeReply_released (s := s.onTables _) hcert _)) nofun
  case freezes =>
    have hstate := takesRequests_not_starting htakes
    cases hflag : s.tables.freezeFlag with
    | true =>
      have hin : inFreeze s = true := (inFreeze_iff s).mpr ⟨hstate, hcert, hflag⟩
      obtain ⟨t, hexec, hreplied⟩ :=
        exec_replied (c := .freeze) rfl htakes ((ownFreeze_again hin).trans (freezeReply_inFreeze hin _)) nofun
      exact ⟨t, s, hexec, hreplied, hreplied.inFreeze_eq.trans hin, fun _ => rfl, nofun⟩
    | false =>
      have hin : inFreeze (freezeEntry (s.onTables fun x => { x with freezeFlag := true })) = true :=
        (inFreeze_iff _).mpr ⟨hstate, hcert, rfl⟩
      obtain ⟨t, hexec, hreplied⟩ := exec_replied (c := .freeze) rfl htakes
        ((ownFreeze_enters hstate hcert hflag).trans (freezeReply_inFreeze hin _)) nofun
      exact ⟨t, _, hexec, hreplied, hreplied.inFreeze_eq.trans hin, nofun, fun _ => freezeEntry_eq _⟩
  case clears =>
    have hown : own .thaw s = freezeReply .done (s.onTables fun x => { x with freezeFlag := false }) :=
      if_neg (by rw [hcert]; exact Bool.false_ne_true)
    exact exec_replied rfl htakes (hown.trans (freezeReply_released (s := s.onTables _) hcert _)) nofun
  case barred =>
    have hown : own .thaw s = freezeReply .barred s := if_pos hcert
    exact exec_replied rfl htakes hown nofun

end Sys2Proof.Machine
end

section
/-! SUPPORT. CLEAR_FLAGS (10 R170) and the sticky flag block (10 R169; 13 Section 13.2): the block as the bits of its classes one after the
other, and what a clear leaves of each. -/

namespace Sys2Proof.Machine

/-! ### The sticky flag block -/

/-- The eight bits of a roller in the sticky flag block (13 Section 13.2). -/
def rollerBits (r : Roller) : List Bool := r.chan.flags.toList ++ [false, false, false]

/-- The four bits of a group in the sticky flag block (13 Section 13.2). -/
def groupBits (x : Group) : List Bool := x.flags.toList

/-- The bits of tables, trace and store, which end the sticky flag block (13 Section 13.2). -/
def lastBits (s : State) : List Bool := s.tables.flags.toList ++ ([s.trace.overflow] ++ [s.store.fail, s.store.invalid])

theorem stickyList_eq (s : State) :
    stickyList s = s.lpu.flags.toList ++ s.rollers.toList.flatMap rollerBits ++ s.groups.toList.flatMap groupBits ++ lastBits s := by
  simp only [stickyList, lastBits, List.append_assoc]
  rfl

theorem stickyList_length (s : State) : (stickyList s).length = 62 := rfl

theorem fromLE_stickyBytes (s : State) : fromLE (stickyBytes s) = bitsOf (stickyList s) :=
  fromLE_leBytes 8 _ (lt_trans (bitsOf_lt (stickyList s)) (by rw [stickyList_length]; norm_num))

/-! ### What a clear leaves of it -/

/-- A change of the bits of each of four, by their places in a block, is one change of the block's part that holds them. -/
theorem flatMap_mapIdx_bits {α : Type} {bits : α → List Bool} {n off : Nat} (hbits : ∀ x, (bits x).length = n) {f : Fin 4 → α → α}
    {k : Nat → Bool → Bool} (hf : ∀ i x, bits (f i x) = (bits x).mapIdx fun m => k (off + n * i + m)) (q : Quad α) :
    (q.mapIdx f).toList.flatMap bits = (q.toList.flatMap bits).mapIdx fun m => k (m + off) := by
  have hplace (i m : Nat) : off + n * i + m = m + (i * n + off) := by ring
  simp only [hplace] at hf
  simp [Quad.mapIdx, Quad.toList, List.mapIdx_append, hf, hbits, add_assoc, Nat.succ_mul]

theorem line_clearSticky (mask : BitVec 64) (s : State) :
    (clearSticky mask s).lpu.flags.toList = s.lpu.flags.toList.mapIdx (kept mask) := rfl

theorem rollers_clearSticky (mask : BitVec 64) (s : State) :
    (clearSticky mask s).rollers.toList.flatMap rollerBits
      = (s.rollers.toList.flatMap rollerBits).mapIdx fun m => kept mask (m + 8) :=
  flatMap_mapIdx_bits (n := 8) (off := 8) (k := kept mask) (fun _ => rfl) (fun _ _ => rfl) s.rollers

theorem groups_clearSticky (mask : BitVec 64) (s : State) :
    (clearSticky mask s).groups.toList.flatMap groupBits
      = (s.groups.toList.flatMap groupBits).mapIdx fun m => kept mask (m + 40) :=
  flatMap_mapIdx_bits (n := 4) (off := 40) (k := kept mask) (fun _ => rfl) (fun _ _ => rfl) s.groups

theorem last_clearSticky (mask : BitVec 64) (s : State) :
    lastBits (clearSticky mask s) = (lastBits s).mapIdx fun m => kept mask (m + 56) := rfl

/-- A clear acts on the block bit by bit (10 R170). -/
theorem stickyList_clearSticky (mask : BitVec 64) (s : State) : stickyList (clearSticky mask s) = (stickyList s).mapIdx (kept mask) := by
  rw [stickyList_eq, stickyList_eq, line_clearSticky, rollers_clearSticky, groups_clearSticky, last_clearSticky]
  simp only [List.mapIdx_append]
  rfl

theorem clearSticky_roller (mask : BitVec 64) (s : State) (i : Fin 4) : (clearSticky mask s).rollers.get i =
    { s.rollers.get i with chan := { (s.rollers.get i).chan with flags := (s.rollers.get i).chan.flags.clear mask i } } :=
  Quad.get_mapIdx _ s.rollers i

theorem clearSticky_group (mask : BitVec 64) (s : State) (g : Fin 4) :
    (clearSticky mask s).groups.get g = { s.groups.get g with flags := (s.groups.get g).flags.clear mask g } :=
  Quad.get_mapIdx _ s.groups g

/-- Settles O46: the block bit by bit, and a clear class by class (`stickyList_clearSticky`). -/
theorem clearFlagsClearsNamedFlags : Obligations.ClearFlagsClearsNamedFlags := by
  refine ⟨fun s => ⟨rfl, leBytes_length 8 _, fun n => ?block⟩, fun s mask htakes => ?clear⟩
  case block =>
    rw [fromLE_stickyBytes]
    exact bitsOf_testBit _ n
  case clear =>
    obtain ⟨t, hexec, hreplied⟩ := exec_replied (c := .clearFlags mask) rfl htakes rfl nofun
    refine ⟨t, clearSticky mask s, hexec, hreplied, stickyList_clearSticky mask s, rfl, rfl, rfl, fun i => ?_, fun g => ?_, rfl⟩
    · rw [clearSticky_roller]
    · rw [clearSticky_group]

end Sys2Proof.Machine
end

section
/-! SUPPORT. IDENTIFY and READ_STATUS (10 R167, R168; 13 R187): the codes of 13 Sections 13.1 and 13.2 read back from their bytes, and the 44
bytes of the status item by item. -/

namespace Sys2Proof.Machine

open Sys2Proof.Laws

/-! ### Codes -/

/-- The qualifier a group state byte carries: the stop cause in STOPPING, the blend direction in TRACK (13 Section 13.2). -/
def qualifierCode (v : GroupView) : Nat :=
  match v.state with
  | .stopping => causeCode v.cause
  | .track => dirCode v.dir
  | _ => 0

/-- The three items of a group state byte, each in its bits (13 Section 13.2). -/
theorem groupByte_items (v : GroupView) :
    groupByte v % 8 = groupStateCode v.state ∧ groupByte v / 8 % 4 = qualifierCode v ∧ groupByte v / 32 = v.windDown.toNat := by
  have hbyte : groupByte v = groupStateCode v.state + 8 * qualifierCode v + 32 * v.windDown.toNat := rfl
  have hstate : groupStateCode v.state ≤ 7 := by cases v.state <;> decide
  have hqualifier : qualifierCode v ≤ 3 := by
    unfold qualifierCode
    split
    · cases v.cause <;> decide
    · cases v.dir <;> decide
    · decide
  omega

theorem groupByte_reads (v : GroupView) : let n := groupByte v
    [GroupState.idle, .engaging, .hold, .follow, .track, .stopping, .disengaging, .faulted][n % 8]? = some v.state
      ∧ (v.state = .stopping → [StopCause.none, .request, .trackLost, .rollerFault][n / 8 % 4]? = some v.cause)
      ∧ (v.state = .track → [BlendDir.none, .inward, .steady, .outward][n / 8 % 4]? = some v.dir)
      ∧ (v.state ≠ .stopping → v.state ≠ .track → n / 8 % 4 = 0) ∧ n.testBit 5 = v.windDown ∧ n < 64 := by
  intro n
  obtain ⟨hstate, hqualifier, hwind⟩ := groupByte_items v
  have hwindLe := Bool.toNat_le v.windDown
  refine ⟨?_, fun hst => ?_, fun hst => ?_, fun hns hnt => ?_, ?_, by omega⟩
  · rw [hstate]
    cases v.state <;> rfl
  · rw [hqualifier, qualifierCode, hst]
    cases v.cause <;> rfl
  · rw [hqualifier, qualifierCode, hst]
    cases v.dir <;> rfl
  · rw [hqualifier, qualifierCode]
    split
    · exact absurd ‹_› hns
    · exact absurd ‹_› hnt
    · rfl
  · rw [Nat.testBit_eq_decide_div_mod_eq, hwind]
    cases v.windDown <;> rfl

/-- The latch causes of a roller in bit order (13 Section 13.2). -/
def latchBits (l : Latch) : List Bool := [l.countJump, l.sampleStale, l.driveFault, l.seqTimeout]

/-- The three items of a roller byte, each in its bits (13 Section 13.2). -/
theorem rollerByte_items (r : Roller) :
    rollerByte r % 8 = stageCode r.seq.stage ∧ rollerByte r / 8 % 2 = (decide (r.seq.stage = .enabling) && r.seq.commanded).toNat
      ∧ rollerByte r / 2 ^ 4 = bitsOf (latchBits r.chan.latch) := by
  have hbyte : rollerByte r = stageCode r.seq.stage + 8 * (decide (r.seq.stage = .enabling) && r.seq.commanded).toNat
      + 16 * bitsOf (latchBits r.chan.latch) := rfl
  have hstage : stageCode r.seq.stage ≤ 6 := by cases r.seq.stage <;> decide
  have henable := Bool.toNat_le (decide (r.seq.stage = .enabling) && r.seq.commanded)
  omega

theorem rollerByte_lt (r : Roller) : rollerByte r < 256 := by
  obtain ⟨-, -, hlatch⟩ := rollerByte_items r
  have := bitsOf_lt (latchBits r.chan.latch)
  simp only [latchBits, List.length_cons, List.length_nil] at this hlatch
  omega

theorem rollerByte_reads (r : Roller) : let n := rollerByte r
    let l := r.chan.latch
    [Stage.safe, .enabling, .energised, .releasing, .released, .applying, .disabling][n % 8]? = some r.seq.stage
      ∧ (n.testBit 3 = true ↔ r.seq.stage = .enabling ∧ r.seq.commanded = true)
      ∧ n.testBit 4 = l.countJump ∧ n.testBit 5 = l.sampleStale ∧ n.testBit 6 = l.driveFault ∧ n.testBit 7 = l.seqTimeout ∧ n < 256 := by
  intro n l
  obtain ⟨hstage, henable, hlatch⟩ := rollerByte_items r
  have hcause (k : Nat) : n.testBit (4 + k) = (latchBits l).getD k false := by
    rw [Nat.add_comm, ← Nat.testBit_div_two_pow, hlatch, bitsOf_testBit]
  refine ⟨?_, ?_, hcause 0, hcause 1, hcause 2, hcause 3, rollerByte_lt r⟩
  · rw [hstage]
    cases r.seq.stage <;> rfl
  · rw [Nat.testBit_eq_decide_div_mod_eq, henable]
    simp

/-- The three items of a table status byte, each in its bits (13 Section 13.2). -/
theorem tableStatusByte_items (c : TableCtl) :
    tableStatusByte c % 4 = lockCode c.lock ∧ tableStatusByte c / 4 % 2 = c.live.toNat ∧ tableStatusByte c / 8 = c.pinned.toNat := by
  have hbyte : tableStatusByte c = lockCode c.lock + 4 * c.live.toNat + 8 * c.pinned.toNat := rfl
  have hlock : lockCode c.lock ≤ 2 := by cases c.lock <;> decide
  have hlive := Bool.toNat_le c.live
  omega

theorem tableStatusByte_reads (c : TableCtl) : let n := tableStatusByte c
    [LockState.unlocked, .locked, .lockedDown][n % 4]? = some c.lock ∧ n.testBit 2 = c.live ∧ n.testBit 3 = c.pinned ∧ n < 16 := by
  intro n
  obtain ⟨hlock, hlive, hpinned⟩ := tableStatusByte_items c
  have hpinnedLe := Bool.toNat_le c.pinned
  refine ⟨?_, ?_, ?_, by omega⟩
  · rw [hlock]
    cases c.lock <;> rfl
  · rw [Nat.testBit_eq_decide_div_mod_eq, hlive]
    cases c.live <;> rfl
  · rw [Nat.testBit_eq_decide_div_mod_eq, hpinned]
    cases c.pinned <;> rfl

theorem resultCode_reads (c : ResultCode) : 1 ≤ resultCode c
    ∧ [ResultCode.done, .accepted, .busy, .barred, .invalid, .pending, .state, .length, .unknown, .full][resultCode c - 1]? = some c := by
  cases c <;> exact ⟨by decide, rfl⟩

theorem resultCode_lt (c : ResultCode) : resultCode c < 256 := by
  cases c <;> decide

/-! ### The status -/

/-- The code of an operating state that is reported (13 Section 13.2). -/
theorem opStateCode_of_not_starting {o : OpState} (h : o ≠ .starting) : opStateCode o = if o = .active then 2 else 1 := by
  cases o
  · exact absurd rfl h
  · rfl
  · rfl

/-- The bytes of the status before those of groups and rollers (13 R187). -/
def statusHead (s : State) : List Byte :=
  leBytes 1 (opStateCode s.lpu.opState) ++ (leBytes 1 (freezeByte s) ++ (leBytes 4 (s.lpu.ext.getD 0)
    ++ leBytes 1 (bitsOf [s.lpu.ext.isNone, s.lpu.resyncDue, s.svc.unanswered.isSome])))

/-- The bytes of the status between those of the tables and the unanswered record (13 R187). -/
def statusCounts (s : State) : List Byte :=
  leBytes 1 s.tables.changes.length ++ (stickyBytes s ++ (leBytes 2 s.lpu.checkErrCount ++ (leBytes 4 s.lpu.missedCount
    ++ (leBytes 2 s.trace.held ++ (leBytes 2 s.trace.overflowCount ++ leBytes 1 (storeCode s.store.state))))))

def groupBytes (s : State) : List Byte := s.groups.toList.flatMap fun g => leBytes 1 (groupByte (viewOf g))

def rollerBytes (s : State) : List Byte := s.rollers.toList.flatMap fun r => leBytes 1 (rollerByte r)

@[simp] theorem statusHead_length (s : State) : (statusHead s).length = 7 := by simp [statusHead]

@[simp] theorem groupBytes_length (s : State) : (groupBytes s).length = 4 := by simp [groupBytes, Quad.toList]

@[simp] theorem rollerBytes_length (s : State) : (rollerBytes s).length = 4 := by simp [rollerBytes, Quad.toList]

@[simp] theorem tableStatusBytes_length (c : Five TableCtl) : (tableStatusBytes c).length = 5 := by simp [tableStatusBytes, Five.toList]

@[simp] theorem statusCounts_length (s : State) : (statusCounts s).length = 20 := by simp [statusCounts, stickyBytes]

theorem statusBytes_eq (s : State) : statusBytes s = statusHead s ++ (groupBytes s ++ (rollerBytes s
    ++ (tableStatusBytes s.tables.ctl ++ (statusCounts s ++ unansweredBytes s.svc.unanswered)))) := by
  simp only [statusBytes, statusHead, statusCounts, groupBytes, rollerBytes, List.append_assoc]

/-- Bytes within a part of a layout that stands behind some bytes and before others. -/
theorem sliceAt_within (a f b : List Byte) {off k n : Nat} (ha : a.length = off) (hf : k + n ≤ f.length) :
    sliceAt (a ++ (f ++ b)) (off + k) n = sliceAt f k n := by
  rw [sliceAt_append_right (by omega), sliceAt_append_left (by omega), ha, Nat.add_sub_cancel_left]

theorem statusHead_at (s : State) {k n : Nat} (h : k + n ≤ 7) : sliceAt (statusBytes s) k n = sliceAt (statusHead s) k n := by
  rw [statusBytes_eq, sliceAt_append_left (by rwa [statusHead_length])]

theorem groupBytes_at (s : State) (g : Fin 4) :
    sliceAt (statusBytes s) (7 + g) 1 = leBytes 1 (groupByte (viewOf (s.groups.get g))) := by
  have h := sliceAt_quad (fun x => leBytes 1 (groupByte (viewOf x))) (fun _ => leBytes_length 1 _) s.groups g (statusHead s)
  simp only [statusHead_length, one_mul] at h
  rw [statusBytes_eq]
  exact h _

theorem rollerBytes_at (s : State) (i : Fin 4) : sliceAt (statusBytes s) (11 + i) 1 = leBytes 1 (rollerByte (s.rollers.get i)) := by
  have h := sliceAt_quad (fun x => leBytes 1 (rollerByte x)) (fun _ => leBytes_length 1 _) s.rollers i (statusHead s ++ groupBytes s)
  simp only [List.length_append, statusHead_length, groupBytes_length, one_mul, List.append_assoc] at h
  rw [statusBytes_eq]
  exact h _

theorem tableStatusBytes_at (s : State) (t : Table) :
    sliceAt (statusBytes s) (15 + codeOfTable t) 1 = leBytes 1 (tableStatusByte (s.tables.ctl.get t)) := by
  have hat := sliceAt_within (statusHead s ++ groupBytes s ++ rollerBytes s) (tableStatusBytes s.tables.ctl)
    (statusCounts s ++ unansweredBytes s.svc.unanswered) (off := 15) (k := codeOfTable t) (n := 1)
    (by simp) (by rw [tableStatusBytes_length]; cases t <;> decide)
  rw [statusBytes_eq]
  simp only [List.append_assoc] at hat
  rw [hat]
  cases t <;> rfl

theorem statusCounts_at (s : State) {k n : Nat} (h : k + n ≤ 20) :
    sliceAt (statusBytes s) (20 + k) n = sliceAt (statusCounts s) k n := by
  have hat := sliceAt_within (statusHead s ++ groupBytes s ++ rollerBytes s ++ tableStatusBytes s.tables.ctl) (statusCounts s)
    (unansweredBytes s.svc.unanswered) (off := 20) (k := k) (n := n)
    (by simp) (by rwa [statusCounts_length])
  rw [statusBytes_eq]
  simpa only [List.append_assoc] using hat

theorem unansweredBytes_at (s : State) (k n : Nat) :
    sliceAt (statusBytes s) (40 + k) n = sliceAt (unansweredBytes s.svc.unanswered) k n := by
  have hat := sliceAt_append_right (a := statusHead s ++ groupBytes s ++ rollerBytes s ++ tableStatusBytes s.tables.ctl ++ statusCounts s)
    (off := 40 + k) (by simp) (unansweredBytes s.svc.unanswered) n
  rw [show 40 + k - _ = k by simp] at hat
  rw [statusBytes_eq]
  simpa only [List.append_assoc] using hat

theorem statusHead_items (s : State) :
    sliceAt (statusBytes s) 0 1 = leBytes 1 (opStateCode s.lpu.opState) ∧ sliceAt (statusBytes s) 1 1 = leBytes 1 (freezeByte s)
      ∧ sliceAt (statusBytes s) 2 4 = leBytes 4 (s.lpu.ext.getD 0)
      ∧ sliceAt (statusBytes s) 6 1 = leBytes 1 (bitsOf [s.lpu.ext.isNone, s.lpu.resyncDue, s.svc.unanswered.isSome]) :=
  ⟨statusHead_at s (by omega), statusHead_at s (by omega), statusHead_at s (by omega), statusHead_at s (by omega)⟩

theorem statusCounts_items (s : State) :
    sliceAt (statusBytes s) 20 1 = leBytes 1 s.tables.changes.length ∧ sliceAt (statusBytes s) 21 8 = stickyBytes s
      ∧ sliceAt (statusBytes s) 29 2 = leBytes 2 s.lpu.checkErrCount ∧ sliceAt (statusBytes s) 31 4 = leBytes 4 s.lpu.missedCount
      ∧ sliceAt (statusBytes s) 35 2 = leBytes 2 s.trace.held ∧ sliceAt (statusBytes s) 37 2 = leBytes 2 s.trace.overflowCount
      ∧ sliceAt (statusBytes s) 39 1 = leBytes 1 (storeCode s.store.state) := by
  have hat {k n : Nat} (h : k + n ≤ 20) := statusCounts_at s h
  exact ⟨hat (k := 0) (by omega), hat (k := 1) (by omega), hat (k := 9) (by omega), hat (k := 11) (by omega), hat (k := 15) (by omega),
    hat (k := 17) (by omega), hat (k := 19) (by omega)⟩

theorem statusBytes_length (s : State) : (statusBytes s).length = 44 := by
  have hunanswered : (unansweredBytes s.svc.unanswered).length = 4 := by
    cases s.svc.unanswered <;> simp [unansweredBytes]
  simp [statusBytes_eq, hunanswered]

theorem numAt_of_slice {bs : List Byte} {off n x : Nat} (h : sliceAt bs off n = leBytes n x) : numAt bs off n = x % 256 ^ n := by
  rw [numAt, h, fromLE_leBytes_mod]

theorem numAt_of_slice_lt {bs : List Byte} {off n x : Nat} (h : sliceAt bs off n = leBytes n x) (hx : x < 256 ^ n) :
    numAt bs off n = x := by
  rw [numAt_of_slice h, Nat.mod_eq_of_lt hx]

/-- A byte of flags at an offset of a layout. -/
theorem testBit_of_slice {bs : List Byte} {off : Nat} {l : List Bool} (h : sliceAt bs off 1 = leBytes 1 (bitsOf l)) (hl : l.length ≤ 8)
    (n : Nat) : (numAt bs off 1).testBit n = l.getD n false := by
  have hlt : bitsOf l < 256 ^ 1 := lt_of_lt_of_le (bitsOf_lt l) (Nat.pow_le_pow_right (n := 2) (by omega) hl)
  rw [numAt_of_slice_lt h hlt, bitsOf_testBit]

theorem inFreeze_of_not_starting {s : State} (h : s.lpu.opState ≠ .starting) : inFreeze s = (s.cert && s.tables.freezeFlag) := by
  rw [Bool.eq_iff_iff, inFreeze_iff, Bool.and_eq_true]
  exact and_iff_right h

theorem numAt_table (s : State) (t : Table) :
    numAt (statusBytes s) (15 + codeOfTable t) 1 = tableStatusByte (s.tables.ctl.get t) := by
  obtain ⟨-, -, -, hlt⟩ := tableStatusByte_reads (s.tables.ctl.get t)
  exact numAt_of_slice_lt (tableStatusBytes_at s t) (lt_trans hlt (by norm_num))

theorem numAt_unanswered {s : State} {u : Unanswered} (h : s.svc.unanswered = some u) :
    numAt (statusBytes s) 40 1 = u.kind.toNat ∧ numAt (statusBytes s) 41 2 = u.cycle.toNat
      ∧ numAt (statusBytes s) 43 1 = resultCode u.code := by
  have hat (k n : Nat) := unansweredBytes_at s k n
  rw [h] at hat
  exact ⟨numAt_of_slice_lt (hat 0 1) u.kind.isLt, numAt_of_slice_lt (hat 1 2) u.cycle.isLt,
    numAt_of_slice_lt (hat 3 1) (resultCode_lt u.code)⟩

theorem numAt_no_unanswered {s : State} (h : s.svc.unanswered = none) : numAt (statusBytes s) 40 4 = 0 := by
  have hat := unansweredBytes_at s 0 4
  rw [h] at hat
  exact numAt_of_slice_lt hat (by norm_num)

theorem ownIdentify_eq {s : State} (h : s.lpu.opState ≠ .starting) : own .identify s =
    (⟨.done, [0x48, 0x3A, 1, BitVec.ofNat 8 s.tables.active.cell.station, if s.lpu.opState = .active then 2 else 1]⟩, s) := by
  show ownIdentify s = _
  rw [ownIdentify, opStateCode_of_not_starting h]
  split <;> rfl

/-- Settles O45: IDENTIFY and READ_STATUS by their owners, the status part by part, and each code by the items of its byte. -/
theorem identifyAndStatusChangeNothing : Obligations.IdentifyAndStatusChangeNothing := by
  refine ⟨fun s htakes => ⟨?identify, exec_replied rfl htakes rfl nofun, ?status⟩, groupByte_reads, rollerByte_reads,
    tableStatusByte_reads, resultCode_reads⟩
  case identify => exact exec_replied rfl htakes (ownIdentify_eq (takesRequests_not_starting htakes)) nofun
  case status =>
    have hstate := takesRequests_not_starting htakes
    obtain ⟨hop, hfreeze, hext, hbits⟩ := statusHead_items s
    obtain ⟨hchanges, hsticky, hcheck, hmissed, hheld, hoverflow, hstore⟩ := statusCounts_items s
    rw [freezeByte, inFreeze_of_not_starting hstate] at hfreeze
    refine ⟨statusBytes_length s, ?_, testBit_of_slice hfreeze (by simp), numAt_of_slice hext, testBit_of_slice hbits (by simp),
      fun g => numAt_of_slice_lt (groupBytes_at s g) (groupByte_lt _), fun i => numAt_of_slice_lt (rollerBytes_at s i) (rollerByte_lt _),
      numAt_table s .cell, numAt_table s .slots, numAt_table s .rollers, numAt_table s .groups, numAt_table s .loads,
      numAt_of_slice hchanges, hsticky, numAt_of_slice hcheck, numAt_of_slice hmissed, numAt_of_slice hheld, fun htrace => ?_,
      numAt_of_slice hoverflow, fun h => ?_, fun snap h => ?_, fun h => ?_, numAt_no_unanswered, fun u h => numAt_unanswered h⟩
    · rw [opStateCode_of_not_starting hstate] at hop
      refine numAt_of_slice_lt hop ?_
      split <;> norm_num
    · obtain ⟨hmax, hlen, -⟩ := htrace
      rw [hlen]
      exact numAt_of_slice_lt hheld (by omega)
    all_goals
      rw [h] at hstore
      exact numAt_of_slice_lt hstore (by norm_num [storeCode])

end Sys2Proof.Machine
end

section
/-! SUPPORT. The reply written into its frame (10 R165), and what an entry that is dropped leaves, at the service area of its frame, at a full queue
and at a later match (10 R164 to R166). -/

namespace Sys2Proof.Machine

open Sys2Proof.Laws

/-! ### Entries that leave the queue -/

/-- An entry dropped with its result present: the result is recorded as unanswered (10 R166). -/
theorem dropEntry_present {e : ReplyEntry} {r : Reply} (h : e.result = some r) (s : State) :
    dropEntry e s = recordUnanswered e r.code (removeEntry e.id s) := by
  simp only [dropEntry, h]

/-- An entry dropped while its request is in service: the request stays in service, to be recorded (10 R166). -/
theorem dropEntry_absent {e : ReplyEntry} (h : e.result = none) (s : State) :
    dropEntry e s = orphan true e (removeEntry e.id s) := by
  simp only [dropEntry, h]

/-- A dropped entry is gone from the queue, with whatever else has its number. -/
theorem dropEntry_queue (e : ReplyEntry) (s : State) :
    (dropEntry e s).svc.queue = s.svc.queue.filter fun x => decide (x.id ≠ e.id) := by
  cases h : e.result with
  | some r => rw [dropEntry_present h]; rfl
  | none => rw [dropEntry_absent h]; rfl

theorem dropEntry_nextId (e : ReplyEntry) (s : State) : (dropEntry e s).svc.nextId = s.svc.nextId := by
  cases h : e.result with
  | some r => rw [dropEntry_present h]; rfl
  | none => rw [dropEntry_absent h]; rfl

theorem dropEntry_store (e : ReplyEntry) (s : State) : (dropEntry e s).store = s.store := by
  cases h : e.result with
  | some r => rw [dropEntry_present h]; rfl
  | none => rw [dropEntry_absent h]; rfl

/-- The oldest entry removed by its number leaves the younger ones, where none of them has that number. -/
theorem filter_oldest {e : ReplyEntry} {rest : List ReplyEntry} (h : ∀ x ∈ rest, x.id ≠ e.id) :
    (e :: rest).filter (fun x => decide (x.id ≠ e.id)) = rest := by
  rw [List.filter_cons_of_neg (by simp), List.filter_eq_self]
  simpa using h

/-! ### The service area of a return frame -/

theorem replyBytes_eq {rep : Reply} (h : rep.payload.length ≤ 64) : replyBytes rep
    = [1, BitVec.ofNat 8 (resultCode rep.code), BitVec.ofNat 8 rep.payload.length] ++ rep.payload
      ++ List.replicate (64 - rep.payload.length) 0 := by
  have hfill : (rep.payload ++ List.replicate (64 - rep.payload.length) (0 : Byte)).take 64
      = rep.payload ++ List.replicate (64 - rep.payload.length) 0 := List.take_of_length_le (by simp; omega)
  rw [replyBytes, hfill, List.append_assoc]
  rfl

theorem replyBytes_ne_nil (rep : Reply) : replyBytes rep ≠ [] := by
  simp [replyBytes, leBytes]

theorem answerFrame_present {e : ReplyEntry} {rep : Reply} (h : e.result = some rep) (p : Pass) (s : State) : answerFrame p e s =
    { removeEntry e.id s with retPass := some ({ p with matched := none }.write (serviceAt p.rx + 3) (replyBytes rep)) } := by
  simp only [answerFrame, h]

theorem answerFrame_absent {e : ReplyEntry} (h : e.result = none) (p : Pass) (s : State) :
    answerFrame p e s = { orphan true e (removeEntry e.id s) with retPass := some { p with matched := none } } := by
  simp only [answerFrame, h, dropEntry_absent h]

theorem answerFrame_store (p : Pass) (e : ReplyEntry) (s : State) : (answerFrame p e s).store = s.store := by
  cases h : e.result with
  | some rep => rw [answerFrame_present h]; rfl
  | none => rw [answerFrame_absent h]; rfl

/-- The service area of a frame whose entry stands in the queue, while no RESTART waits (10 R165). -/
theorem passService_matched {s : State} {p : Pass} {e : ReplyEntry} (hp : s.retPass = some p) (hf : p.followed = true)
    (hcut : p.cut = false) (hin : serviceAt p.rx < p.rx.length) (hm : p.matched = some e.id) (he : entryOfId e.id s = some e)
    (hre : s.store.restart = none) : passService s = answerFrame p e s := by
  have hdue : restartDue (answerFrame p e s) = false := restartDue_of_none (by rw [answerFrame_store, hre])
  simp [passService, hp, hf, hcut, hin, hm, he, afterQueue_of_not_due hdue]

/-- Settles O22: the bytes of a reply, and the frame with the result present (`Pass.write_within`) and absent. -/
theorem replyWrittenIntoItsFrame : Obligations.ReplyWrittenIntoItsFrame := by
  refine ⟨fun rep h => replyBytes_eq h, fun s p e hp hf hcut hlen hin hm he hre => ?_⟩
  intro left
  have hpass : exec .serviceAreaReturn s = .next (answerFrame p e s) :=
    congrArg Host.Outcome.next (passService_matched hp hf hcut (by omega) hm he hre)
  refine ⟨fun rep hres => ?present, fun hres => ?absent⟩
  case present =>
    have hwrite := Pass.write_within (p := { p with matched := none }) (hlen.symm ▸ hin) (replyBytes_ne_nil rep)
    rw [hpass, answerFrame_present hres, hwrite]
    rfl
  case absent =>
    rw [hpass, answerFrame_absent hres]
    rfl

/-! ### A queue that gives up its oldest entry -/

/-- A full queue gives up its oldest entry (10 R164). -/
theorem makeRoom_full {s : State} {a b c d : ReplyEntry} (h : s.svc.queue = [a, b, c, d]) : makeRoom s = dropEntry a s := by
  simp [makeRoom, h, Config.queueMax]

/-- The entry of a request that is taken from an outbound frame now (10 R163, R164). -/
def takenEntry (p : Pass) (s : State) : ReplyEntry :=
  { id := s.svc.nextId, cycle := frameCycle p.rx, kind := serviceByte p.rx 1, payload := servicePayload p.rx, answer := none
    result := judgedResult (serviceByte p.rx 1) (serviceByte p.rx 2).toNat (servicePayload p.rx), age := 0, record := false }

/-- A request that finds the queue full (10 R164). -/
theorem takeFromFrame_full {p : Pass} {s : State} {a b c d : ReplyEntry} (ha : p.addressed = true) (h : s.svc.queue = [a, b, c, d]) :
    takeFromFrame p s = (dropEntry a s).onSvc fun x => { x with nextId := x.nextId + 1, queue := x.queue ++ [takenEntry p s] } := by
  rw [takeFromFrame, if_pos ha, takeRequest, makeRoom_full h]
  simp only [State.onSvc, dropEntry_nextId]
  rfl

/-- A cycle number that the second entry has and the oldest has not (10 R165). -/
theorem matchReturn_second {s : State} {d e : ReplyEntry} {rest : List ReplyEntry} {cycle : BitVec 16} (hq : s.svc.queue = d :: e :: rest)
    (hd : d.cycle ≠ cycle) (he : e.cycle = cycle) : matchReturn cycle s = (some e.id, dropEntry d s) := by
  simp [matchReturn, hq, hd, he, dropAll]

end Sys2Proof.Machine
end

section
/-! SUPPORT. The bound of the reply queue (10 R164): no step makes the queue longer but the check word of an outbound frame, and that one makes
room first. -/

namespace Sys2Proof.Machine

open Sys2Proof.Laws

/-- The reply queue has not grown. -/
def NoLonger (s t : State) : Prop := t.svc.queue.length ≤ s.svc.queue.length

theorem NoLonger.refl (s : State) : NoLonger s s := le_rfl

theorem NoLonger.trans {s t u : State} (h : NoLonger s t) (k : NoLonger t u) : NoLonger s u := le_trans k h

theorem NoLonger.of_svc {s t : State} (h : t.svc = s.svc) : NoLonger s t := by
  unfold NoLonger
  rw [h]

theorem NoLonger.of_empty {s t : State} (h : t.svc.queue = []) : NoLonger s t := by
  unfold NoLonger
  rw [h]
  exact Nat.zero_le _

theorem OnlyMotion.noLonger {s t : State} (h : OnlyMotion s t) : NoLonger s t := by
  rw [h]
  exact .refl s

theorem OnlyCycle.noLonger {s t : State} (h : OnlyCycle s t) : NoLonger s t := by
  rw [h]
  exact .refl s

theorem onLpu_noLonger (s : State) (f : Lpu → Lpu) : NoLonger s (s.onLpu f) := .of_svc rfl

theorem foldl_noLonger {α : Type} {f : State → α → State} (h : ∀ s a, NoLonger s (f s a)) (l : List α) (s : State) :
    NoLonger s (l.foldl f s) :=
  foldl_keeps (P := NoLonger s) (fun t a ht => ht.trans (h t a)) l (.refl s)

/-! ### Requests and the reply queue -/

theorem own_noLonger (r : Request) (s : State) : NoLonger s (own r s).2 := by
  unfold NoLonger
  rw [(own_kept r s).queue]

theorem onEntry_noLonger (id : Nat) (f : ReplyEntry → ReplyEntry) (s : State) : NoLonger s (s.onEntry id f) :=
  (onEntry_queue_length s id f).le

theorem linkRestart_noLonger (e : ReplyEntry) (rep : Reply) (s : State) : NoLonger s (linkRestart e rep s) := by
  rw [linkRestart_only]
  exact .refl s

theorem serveNow_noLonger (r : Request) (s : State) : NoLonger s (serveNow r s).2 := own_noLonger r s

theorem serveRow_noLonger (r : Request) (s : State) : NoLonger s (serveRow r s) := by
  unfold serveRow
  split
  · simp only
    split
    · exact ((serveNow_noLonger r s).trans (onEntry_noLonger _ _ _)).trans (linkRestart_noLonger _ _ _)
    · exact serveNow_noLonger r s
  · exact .refl s

theorem answerOf_noLonger (e : ReplyEntry) (s : State) : NoLonger s (answerOf e s).2 := by
  unfold answerOf
  split
  · exact .refl s
  · split
    · exact (serveNow_noLonger _ s).trans (linkRestart_noLonger _ _ _)
    · exact .refl s

theorem afterQueue_noLonger (s : State) : NoLonger s (afterQueue s) := by
  unfold afterQueue
  split
  · exact .of_empty rfl
  · exact .refl s

theorem resultPresent_noLonger (e : ReplyEntry) (rep : Reply) (s : State) : NoLonger s (resultPresent e rep s) := by
  unfold resultPresent
  split
  · exact onEntry_noLonger _ _ s
  · simp only
    split <;> exact .refl s

theorem completeService_noLonger (n : Nat) (s : State) : NoLonger s (completeService n s) := by
  unfold completeService
  split
  · exact ((answerOf_noLonger _ s).trans (resultPresent_noLonger _ _ _)).trans (afterQueue_noLonger _)
  · exact .refl s

theorem removeEntry_noLonger (id : Nat) (s : State) : NoLonger s (removeEntry id s) := List.length_filter_le _ _

theorem dropEntry_noLonger (e : ReplyEntry) (s : State) : NoLonger s (dropEntry e s) := by
  unfold NoLonger
  rw [dropEntry_queue]
  exact List.length_filter_le _ _

theorem dropSilently_noLonger (e : ReplyEntry) (s : State) : NoLonger s (dropSilently e s) := by
  rw [dropSilently_eq]
  exact List.length_filter_le _ _

theorem matchReturn_noLonger (cycle : BitVec 16) (s : State) : NoLonger s (matchReturn cycle s).2 := by
  unfold matchReturn
  split
  · exact foldl_noLonger (fun t e => dropEntry_noLonger e t) _ s
  · exact .refl s

/-- A request taken from a frame is the one thing that adds an entry, and it makes room first (10 R164). -/
theorem takeFromFrame_queueOk (p : Pass) {s : State} (h : QueueOk s) : QueueOk (takeFromFrame p s) := by
  unfold takeFromFrame
  split
  · have hroom := makeRoom_length s h
    simp only [QueueOk, takeRequest, State.onSvc_svc, List.length_append, List.length_singleton]
    omega
  · exact h

/-! ### Time that passes -/

theorem elapse_noLonger (inclusive : Bool) (dt : Nat) (s : State) : NoLonger s (elapse inclusive dt s) := by
  have hsilent (b : Bool) : NoLonger s (if b then silenceExpiry s else s) := by
    split
    · exact (onLpu_noLonger s _).trans (lineFault_onlyMotion _).noLonger
    · exact .refl s
  unfold elapse
  simp only
  split
  · exact .of_empty rfl
  · split
    · exact .of_empty rfl
    · exact (hsilent _).trans (ageEntries_queue_length dt _).le

theorem silenceEnds_noLonger (s : State) : NoLonger s (silenceEnds s) := by
  unfold silenceEnds
  split
  · exact elapse_noLonger _ _ s
  · exact .refl s

theorem restartWaitEnds_noLonger (s : State) : NoLonger s (restartWaitEnds s) := by
  unfold restartWaitEnds
  split
  · exact elapse_noLonger _ _ s
  · exact .refl s

/-! ### Frames in passage -/

theorem headerArrives_noLonger (port : Port) (f : LinkFrame) (s : State) : NoLonger s (headerArrives port f s) := by
  have hmatch : NoLonger s (if (newPass s f).followed then matchReturn (frameCycle f.bytes) s else (none, s)).2 := by
    split
    · exact matchReturn_noLonger _ s
    · exact .refl s
  unfold headerArrives
  split
  · cases port with
    | m => exact .refl s
    | d => exact (hmatch.trans (.of_svc rfl)).trans (afterQueue_noLonger _)
  · exact .refl s

theorem latchFirst_svc (s : State) : (latchFirst s).svc = s.svc := by
  unfold latchFirst
  repeat' split
  all_goals rfl

theorem passOutField_svc (i : Fin 4) (s : State) : (passOutField i s).svc = s.svc := by
  unfold passOutField
  repeat' split
  all_goals rfl

theorem passInField_svc (i : Fin 4) (s : State) : (passInField i s).svc = s.svc := by
  unfold passInField
  repeat' split
  all_goals rfl

theorem passReport_svc (s : State) : (passReport s).svc = s.svc := by
  unfold passReport
  repeat' split
  all_goals rfl

theorem answerFrame_noLonger (p : Pass) (e : ReplyEntry) (s : State) : NoLonger s (answerFrame p e s) := by
  unfold answerFrame
  split
  · exact removeEntry_noLonger e.id s
  · exact dropEntry_noLonger e s

theorem passService_noLonger (s : State) : NoLonger s (passService s) := by
  unfold passService
  repeat' split
  all_goals first | exact .refl s | exact (answerFrame_noLonger _ _ s).trans (afterQueue_noLonger _)

theorem closeOut_queueOk {s : State} (h : QueueOk s) : QueueOk (closeOut s) := by
  unfold closeOut
  split
  · rename_i p _
    split
    · simp only
      split
      · exact h
      · split
        · exact le_trans (afterQueue_noLonger _) (takeFromFrame_queueOk p (s := { s with outPass := none, sentD := _ }) h)
        · exact h
    · exact h
  · exact h

theorem cutCheck_noLonger (p : Pass) (s : State) : NoLonger s (cutCheck p s) := by
  unfold cutCheck
  split <;> exact .refl s

theorem cutReply_noLonger (p : Pass) (s : State) : NoLonger s (cutReply p s) := by
  unfold cutReply
  repeat' split
  all_goals first | exact .refl s | exact dropSilently_noLonger _ s

theorem cutShort_noLonger (port : Port) (s : State) : NoLonger s (cutShort port s) := by
  unfold cutShort
  cases port with
  | m =>
    simp only
    split
    · split
      · exact cutCheck_noLonger _ _
      · exact .refl s
    · exact .refl s
  | d =>
    simp only
    split
    · rename_i p _
      split
      · have hcut : NoLonger s (cutReply p (cutCheck p { s with retPass := none, sentM := some (sentFrame p) })) :=
          (cutCheck_noLonger p { s with retPass := none, sentM := _ }).trans (cutReply_noLonger p _)
        have hcleared : NoLonger s (clearBuffers (cutReply p (cutCheck p { s with retPass := none, sentM := some (sentFrame p) }))) := hcut
        exact hcleared.trans (afterQueue_noLonger _)
      · exact .refl s
    · exact .refl s

/-! ### Acceptance -/

theorem acceptedCycle_noLonger (order : List (Fin 4)) (e k : Nat) (resync : Bool) {s t : State} (h : NoLonger s t) :
    NoLonger s (acceptedCycle order e k resync t) :=
  h.trans (acceptedCycle_only order e k resync t).noLonger

theorem acceptResync_noLonger (order : List (Fin 4)) (e gap : Nat) (cycle : BitVec 16) (s : State) :
    NoLonger s (acceptResync order e gap cycle s) := by
  unfold acceptResync
  exact acceptedCycle_noLonger order _ 1 true
    (((onLpu_noLonger s _).trans (lineFault_onlyMotion _).noLonger).trans (onLpu_noLonger _ _))

theorem classify_noLonger (order : List (Fin 4)) (cycle : BitVec 16) (s : State) : NoLonger s (classify order cycle s) := by
  unfold classify
  split
  · exact acceptedCycle_noLonger order _ 1 false (onLpu_noLonger s _)
  · simp only
    split
    · exact acceptResync_noLonger order _ _ cycle s
    · split
      · exact onLpu_noLonger s _
      · split
        · exact acceptedCycle_noLonger order _ _ false ((onLpu_noLonger s _).trans (onLpu_noLonger _ _))
        · exact acceptResync_noLonger order _ _ cycle s

theorem goodReturn_noLonger (order : List (Fin 4)) (p : Pass) (s : State) : NoLonger s (goodReturn order p s) := by
  unfold goodReturn
  split
  · exact onLpu_noLonger s _
  · split
    · exact classify_noLonger order _ s
    · exact .refl s

theorem closeReturn_noLonger (dt : Nat) (order : List (Fin 4)) (s : State) : NoLonger s (closeReturn dt order s) := by
  have helapsed := elapse_noLonger false dt s
  unfold closeReturn
  simp only
  generalize elapse false dt s = u at helapsed ⊢
  split
  · rename_i p _
    have hsent : NoLonger s { u with retPass := none, sentM := some (sentFrame p) } := helapsed
    repeat' split
    all_goals first
      | exact .refl s
      | exact hsent
      | exact hsent.trans (goodReturn_noLonger order p _)
  · exact .refl s

/-! ### Every command -/

theorem certAssert_svc (s : State) : (withFreezeEntry s { s with cert := true }).svc = s.svc := by
  unfold withFreezeEntry
  split <;> rfl

theorem assertReset_noLonger (a b : Nat) (s : State) : NoLonger s (assertReset a b s) := by
  unfold assertReset
  repeat' split
  all_goals first | exact .refl s | exact .of_empty rfl

theorem loadComplete_svc (s : State) : (loadComplete s).svc = s.svc := by
  unfold loadComplete completeLoad withFreezeEntry loadTables
  simp only
  repeat' split
  all_goals rfl

theorem saveDone_svc (v : Bool) (s : State) : (saveDone v s).svc = s.svc := by
  unfold saveDone
  repeat' split
  all_goals rfl

theorem traceAppends_svc (s : State) : (traceAppends s).svc = s.svc := by
  unfold traceAppends
  split <;> rfl

/-- No command makes the queue longer but the check word of an outbound frame. -/
theorem exec_noLonger (c : Instr) (s : State) : ∃ t, exec c s = .next t ∧ (NoLonger s t ∨ t = closeOut s) := by
  cases c with
  | outboundCheckWord => exact ⟨_, rfl, .inr rfl⟩
  | powerUp | powerDown => exact ⟨_, rfl, .inl (.of_empty rfl)⟩
  | resetAssert a b => exact ⟨_, rfl, .inl (assertReset_noLonger a b s)⟩
  | resetRelease | certRelease => exact ⟨_, rfl, .inl (.of_svc rfl)⟩
  | storeLoadComplete => exact ⟨_, rfl, .inl (.of_svc (loadComplete_svc s))⟩
  | passHeader port f => exact ⟨_, rfl, .inl (headerArrives_noLonger port f s)⟩
  | frameCutShort port => exact ⟨_, rfl, .inl (cutShort_noLonger port s)⟩
  | firstOutField => exact ⟨_, rfl, .inl (.of_svc (latchFirst_svc s))⟩
  | outFieldPassage i => exact ⟨_, rfl, .inl (.of_svc (passOutField_svc i s))⟩
  | inFieldPassage i => exact ⟨_, rfl, .inl (.of_svc (passInField_svc i s))⟩
  | reportFieldArrival => exact ⟨_, rfl, .inl (.of_svc (passReport_svc s))⟩
  | serviceAreaReturn => exact ⟨_, rfl, .inl (passService_noLonger s)⟩
  | serviceComplete n => exact ⟨_, rfl, .inl (completeService_noLonger n s)⟩
  | returnCheckWord dt order => exact ⟨_, rfl, .inl (closeReturn_noLonger dt order s)⟩
  | stageTimerExpiry i => exact ⟨_, rfl, .inl (stageExpires_onlyMotion i s).noLonger⟩
  | loadBlendEnd g => exact ⟨_, rfl, .inl (loadBlendEnds_onlyMotion g s).noLonger⟩
  | settleTimerExpiry g => exact ⟨_, rfl, .inl (settleExpires_onlyMotion g s).noLonger⟩
  | trackBlendInEnd g => exact ⟨_, rfl, .inl (trackBlendIn_onlyMotion g s).noLonger⟩
  | trackBlendOutEnd g => exact ⟨_, rfl, .inl (trackBlendOut_onlyMotion g s).noLonger⟩
  | traceRecordAppend => exact ⟨_, rfl, .inl (.of_svc (traceAppends_svc s))⟩
  | lineSilenceExpiry => exact ⟨_, rfl, .inl (silenceEnds_noLonger s)⟩
  | certAssert => exact ⟨_, rfl, .inl (.of_svc (certAssert_svc s))⟩
  | saveComplete v => exact ⟨_, rfl, .inl (.of_svc (saveDone_svc v s))⟩
  | restartEffect => exact ⟨_, rfl, .inl (restartWaitEnds_noLonger s)⟩
  | _ => exact ⟨_, exec_request rfl s, .inl (serveRow_noLonger _ s)⟩

/-- The bound of the reply queue holds along every step (10 R164). -/
theorem step_queueOk {s t : State} (hs : QueueOk s) (h : step s = .next t) : QueueOk t := by
  unfold step at h
  split at h
  · rename_i c rest _
    obtain ⟨u, hu, hcases⟩ := exec_noLonger c { s with pending := rest }
    obtain rfl : u = t := Host.Outcome.next.inj (hu.symm.trans h)
    rcases hcases with hle | rfl
    · exact le_trans hle hs
    · exact closeOut_queueOk (s := { s with pending := rest }) hs
  · obtain rfl := Host.Outcome.next.inj h
    exact le_trans (elapse_noLonger true 1 s) hs

/-! ### The oldest entry given up -/

/-- The check word of an addressed outbound frame that finds the queue full, while no RESTART waits (10 R164). -/
theorem closeOut_full {s : State} {p : Pass} {a b c d : ReplyEntry} (hp : s.outPass = some p) (hf : p.followed = true)
    (hlen : p.rx.length = declaredLen p.rx) (hcut : p.cut = false) (hre : s.store.restart = none) (hg : checkGood p.rx = true)
    (hq : s.svc.queue = [a, b, c, d]) (ha : (serviceByte p.rx 0).toNat = p.station) :
    closeOut s = (dropEntry a { s with outPass := none, sentD := some (sentFrame p) }).onSvc fun x =>
      { x with nextId := x.nextId + 1, queue := x.queue ++ [takenEntry p s] } := by
  rw [closeOut_of_pass hp hf hlen hcut, if_pos hg,
    takeFromFrame_full (s := { s with outPass := none, sentD := some (sentFrame p) }) (decide_eq_true ha) hq]
  exact afterQueue_of_not_due (restartDue_of_none (by rw [State.onSvc_store, dropEntry_store]; exact hre))

/-- The header of a followed return frame that matches the second entry, while no RESTART waits (10 R165). -/
theorem returnHeader_second {s : State} {f : LinkFrame} {d e : ReplyEntry} {rest : List ReplyEntry} (hf : (newPass s f).followed = true)
    (hre : s.store.restart = none) (hq : s.svc.queue = d :: e :: rest) (hd : d.cycle ≠ frameCycle f.bytes)
    (he : e.cycle = frameCycle f.bytes) : returnHeader f s =
      { clearBuffers (dropEntry d s) with retPass := some { newPass s f with matched := some e.id }, sentM := s.sentM } := by
  unfold returnHeader
  simp only [hf, sentUnfollowed, if_true, matchReturn_second hq hd he]
  exact afterQueue_of_not_due (restartDue_of_none ((congrArg Store.restart (dropEntry_store d s)).trans hre))

/-- Settles O16: the bound along a step, and the oldest entry dropped, at a full queue and at a later match. -/
theorem queueGivesUpOldest : Obligations.QueueGivesUpOldest := by
  refine ⟨fun s t => step_queueOk, fun s p a b c d hp hf hlen hcut hre hg hq hids ha => ?full,
    fun s f d e rest r hp hr hst hc hre hq hd he hres hids => ?later⟩
  case full =>
    refine ⟨_, takenEntry p s, congrArg Host.Outcome.next (closeOut_full hp hf hlen hcut hre hg hq ha), ?_, rfl, rfl, fun r hres => ?_,
      fun hres => ?_⟩
    · show (dropEntry a { s with outPass := none, sentD := some (sentFrame p) }).svc.queue ++ [takenEntry p s] = _
      rw [dropEntry_queue, hq, filter_oldest hids]
      rfl
    · rw [dropEntry_present hres]
      exact ⟨rfl, rfl, rfl⟩
    · rw [dropEntry_absent hres]
      exact ⟨rfl, rfl, rfl⟩
  case later =>
    have hheader := returnHeader_second (newPass_followed hr hst hc) hre hq hd he
    refine ⟨_, congrArg Host.Outcome.next ((headerArrives_d f hp).trans hheader), ?_, ?_⟩
    · show (dropEntry d s).svc.queue = _
      rw [dropEntry_queue, hq, filter_oldest hids]
    · rw [dropEntry_present hres]
      exact ⟨rfl, rfl, rfl, _, rfl, rfl⟩

end Sys2Proof.Machine
end

section
/-! SUPPORT. The Trace Buffer (Chapter 11): its two pointers and the number of records they tell (R173, R176), the count of a cycle and the append
(R174, R176), and that every step keeps the records in ascending cycle, as many as the pointers tell. -/

namespace Sys2Proof.Machine

/-! ### The pointers -/

/-- Two pointers that stand as those of a record store do: the write pointer is ahead of the read pointer by at most the store's places. -/
structure PointersOk (w r : TracePtr) : Prop where
  writeIndex : w.index < 512
  readIndex : r.index < 512
  sameTurn : w.wrap = r.wrap → r.index ≤ w.index
  otherTurn : w.wrap ≠ r.wrap → w.index ≤ r.index

theorem heldBetween_sameTurn {w r : TracePtr} (h : w.wrap = r.wrap) : heldBetween w r = w.index - r.index := if_pos h

theorem heldBetween_otherTurn {w r : TracePtr} (h : w.wrap ≠ r.wrap) : heldBetween w r = 512 + w.index - r.index := if_neg h

theorem pointersOk_sameTurn {w r : TracePtr} (hturn : w.wrap = r.wrap) (hle : r.index ≤ w.index) (hw : w.index < 512) :
    PointersOk w r := ⟨hw, lt_of_le_of_lt hle hw, fun _ => hle, fun hne => absurd hturn hne⟩

theorem pointersOk_otherTurn {w r : TracePtr} (hturn : w.wrap ≠ r.wrap) (hle : w.index ≤ r.index) (hr : r.index < 512) :
    PointersOk w r := ⟨lt_of_le_of_lt hle hr, hr, fun heq => absurd heq hturn, fun _ => hle⟩

theorem TracePtr.next_within {p : TracePtr} (h : p.index + 1 < 512) : p.next.index = p.index + 1 ∧ p.next.wrap = p.wrap := by
  have hnext : p.next = ⟨p.index + 1, p.wrap⟩ := if_pos h
  rw [hnext]
  exact ⟨rfl, rfl⟩

theorem TracePtr.next_turn {p : TracePtr} (h : ¬ p.index + 1 < 512) : p.next.index = 0 ∧ p.next.wrap = !p.wrap := by
  have hnext : p.next = ⟨0, !p.wrap⟩ := if_neg h
  rw [hnext]
  exact ⟨rfl, rfl⟩

theorem PointersOk.held_le {w r : TracePtr} (h : PointersOk w r) : heldBetween w r ≤ 512 := by
  have hw := h.writeIndex
  by_cases hturn : w.wrap = r.wrap
  · rw [heldBetween_sameTurn hturn]
    omega
  · have hle := h.otherTurn hturn
    rw [heldBetween_otherTurn hturn]
    omega

/-- Equal pointers tell an empty buffer (11 R173, R179). -/
theorem pointersOk_self {w : TracePtr} (h : w.index < 512) : PointersOk w w ∧ heldBetween w w = 0 :=
  ⟨pointersOk_sameTurn rfl le_rfl h, (heldBetween_sameTurn rfl).trans (Nat.sub_self _)⟩

/-- The write pointer of a buffer that is not full advances: the pointers tell one record more (11 R176). -/
theorem PointersOk.next_write {w r : TracePtr} (h : PointersOk w r) (hroom : ¬ (w.index = r.index ∧ w.wrap ≠ r.wrap)) :
    PointersOk w.next r ∧ heldBetween w.next r = heldBetween w r + 1 := by
  obtain ⟨hw, hr, hsame, hother⟩ := h
  by_cases hturn : w.wrap = r.wrap
  · have hle := hsame hturn
    rw [heldBetween_sameTurn hturn]
    by_cases hin : w.index + 1 < 512
    · obtain ⟨hindex, hwrap⟩ := TracePtr.next_within hin
      have hnext := hwrap.trans hturn
      rw [heldBetween_sameTurn hnext]
      exact ⟨pointersOk_sameTurn hnext (by omega) (by omega), by omega⟩
    · obtain ⟨hindex, hwrap⟩ := TracePtr.next_turn hin
      have hnext : w.next.wrap ≠ r.wrap := by simp [hwrap, hturn]
      rw [heldBetween_otherTurn hnext]
      exact ⟨pointersOk_otherTurn hnext (by omega) hr, by omega⟩
  · have hlt : w.index < r.index := lt_of_le_of_ne (hother hturn) fun heq => hroom ⟨heq, hturn⟩
    obtain ⟨hindex, hwrap⟩ := TracePtr.next_within (p := w) (by omega)
    have hnext : w.next.wrap ≠ r.wrap := hwrap ▸ hturn
    rw [heldBetween_otherTurn hturn, heldBetween_otherTurn hnext]
    exact ⟨pointersOk_otherTurn hnext (by omega) hr, by omega⟩

/-- The read pointer of a buffer that holds a record advances: the pointers tell one record less (11 R177). -/
theorem PointersOk.next_read {w r : TracePtr} (h : PointersOk w r) (hheld : 0 < heldBetween w r) :
    PointersOk w r.next ∧ heldBetween w r.next + 1 = heldBetween w r := by
  obtain ⟨hw, hr, hsame, hother⟩ := h
  by_cases hturn : w.wrap = r.wrap
  · rw [heldBetween_sameTurn hturn] at hheld ⊢
    obtain ⟨hindex, hwrap⟩ := TracePtr.next_within (p := r) (by omega)
    have hnext := hturn.trans hwrap.symm
    rw [heldBetween_sameTurn hnext]
    exact ⟨pointersOk_sameTurn hnext (by omega) hw, by omega⟩
  · have hle := hother hturn
    rw [heldBetween_otherTurn hturn]
    by_cases hin : r.index + 1 < 512
    · obtain ⟨hindex, hwrap⟩ := TracePtr.next_within hin
      have hnext : w.wrap ≠ r.next.wrap := hwrap ▸ hturn
      rw [heldBetween_otherTurn hnext]
      exact ⟨pointersOk_otherTurn hnext (by omega) (by omega), by omega⟩
    · obtain ⟨hindex, hwrap⟩ := TracePtr.next_turn hin
      have hnext : w.wrap = r.next.wrap := (Bool.eq_not_iff.mpr hturn).trans hwrap.symm
      rw [heldBetween_sameTurn hnext]
      exact ⟨pointersOk_sameTurn hnext (by omega) hw, by omega⟩

/-! ### The append -/

theorem TraceBuffer.isFull_iff (b : TraceBuffer) :
    b.isFull = true ↔ b.write.index = b.read.index ∧ b.write.wrap ≠ b.read.wrap := by
  simp [TraceBuffer.isFull]

theorem appendRecord_of_room {b : TraceBuffer} (h : ¬ (b.write.index = b.read.index ∧ b.write.wrap ≠ b.read.wrap)) (r : TraceRecord) :
    appendRecord r b = { b with records := b.records ++ [r], write := b.write.next } :=
  if_neg (mt b.isFull_iff.mp h)

theorem appendRecord_of_full {b : TraceBuffer} (h : b.write.index = b.read.index ∧ b.write.wrap ≠ b.read.wrap) (r : TraceRecord) :
    appendRecord r b = { b with overflowCount := min 65535 (b.overflowCount + 1), overflow := true } :=
  if_pos (b.isFull_iff.mpr h)

/-- A count that reaches d, in a buffer that is not full (11 R174, R176). -/
theorem traceReaches_of_room (e : Nat) {s : State}
    (h : ¬ (s.trace.write.index = s.trace.read.index ∧ s.trace.write.wrap ≠ s.trace.read.wrap)) :
    traceReaches e s = { s with trace := { s.trace with
      counter := 0, records := s.trace.records ++ [traceRecordOf e s], lastCounted := some e, write := s.trace.write.next } } :=
  congrArg (fun b => { s with trace := b })
    (appendRecord_of_room (b := { s.trace with counter := 0, lastCounted := some e }) h (traceRecordOf e s))

/-- A count that reaches d, in a full buffer (11 R174, R176). -/
theorem traceReaches_of_full (e : Nat) {s : State}
    (h : s.trace.write.index = s.trace.read.index ∧ s.trace.write.wrap ≠ s.trace.read.wrap) :
    traceReaches e s = { s with trace := { s.trace with
      counter := 0, overflow := true, overflowCount := min 65535 (s.trace.overflowCount + 1), lastCounted := some e } } :=
  congrArg (fun b => { s with trace := b })
    (appendRecord_of_full (b := { s.trace with counter := 0, lastCounted := some e }) h (traceRecordOf e s))

/-- A cycle counted while the trace is on and below d (11 R174). -/
theorem traceWork_of_below (e : Nat) {s : State} (hon : s.trace.enable = true) (hd : s.trace.counter + 1 ≠ s.trace.decimation) :
    traceWork e s = { s with trace := { s.trace with counter := s.trace.counter + 1, lastCounted := some e } } := by
  simp [traceWork, reachesNext, hon, hd, State.onTrace]

theorem traceWork_of_reaches (e : Nat) {s : State} (hon : s.trace.enable = true) (hd : s.trace.counter + 1 = s.trace.decimation) :
    traceWork e s = traceReaches e s := by
  simp [traceWork, reachesNext, hon, hd]

/-- The row makes an append where E's cycle has not been counted and its count reaches d (11 R174; log 5). -/
theorem traceDue_eq_some {s : State} {e : Nat} : traceDue s = some e ↔
    s.lpu.opState = .active ∧ s.lpu.ext = some e ∧ s.trace.enable = true ∧ s.trace.lastCounted ≠ some e
      ∧ s.trace.counter + 1 = s.trace.decimation := by
  unfold traceDue
  cases hext : s.lpu.ext with
  | none => simp
  | some d =>
    simp only [inRun, reachesNext, Option.ite_none_right_eq_some, Bool.and_eq_true, decide_eq_true_eq, Option.some.injEq]
    constructor
    · rintro ⟨⟨⟨⟨ho, hon⟩, hnew⟩, hd⟩, rfl⟩
      exact ⟨ho, rfl, hon, hnew, hd⟩
    · rintro ⟨ho, rfl, hon, hnew, hd⟩
      exact ⟨⟨⟨⟨ho, hon⟩, hnew⟩, hd⟩, rfl⟩

theorem traceDue_eq_none {s : State} (h : s.lpu.opState ≠ .active ∨ s.lpu.ext = none ∨ s.trace.enable = false
    ∨ s.lpu.ext = s.trace.lastCounted ∨ s.trace.counter + 1 ≠ s.trace.decimation) : traceDue s = none := by
  rw [Option.eq_none_iff_forall_ne_some]
  intro e hdue
  obtain ⟨ho, hext, hon, hnew, hd⟩ := traceDue_eq_some.mp hdue
  rcases h with h | h | h | h | h
  · exact h ho
  · exact absurd (hext.symm.trans h) nofun
  · exact absurd (hon.symm.trans h) nofun
  · exact hnew (h.symm.trans hext)
  · exact h hd

theorem traceAppends_of_due {s : State} {e : Nat} (h : traceDue s = some e) : traceAppends s = traceReaches e s := by
  rw [traceAppends, h]

theorem traceAppends_of_not_due {s : State} (h : traceDue s = none) : traceAppends s = s := by
  rw [traceAppends, h]

/-! ### The buffer in order -/

/-- What `TraceOk` says of the buffer alone: as many records as the pointers tell, in strictly ascending cycle (11 R176). -/
structure BufferOk (b : TraceBuffer) : Prop where
  pointers : PointersOk b.write b.read
  count : b.records.length = heldBetween b.write b.read
  order : ascending b.records

/-- What `TraceOk` says of the records and E: a run begins with none, and none is of a cycle above E, nor of E's before E's is counted. -/
structure RecordsPast (o : OpState) (ext : Option Nat) (b : TraceBuffer) : Prop where
  none_first : o = .active → ext = none → b.records = []
  past : ∀ e, ext = some e → ∀ r ∈ b.records, r.cycle < e ∨ (r.cycle = e ∧ b.lastCounted = some e)

theorem traceOk_iff (s : State) : TraceOk s ↔ BufferOk s.trace ∧ RecordsPast s.lpu.opState s.lpu.ext s.trace := by
  constructor
  · rintro ⟨-, hcount, hw, hr, hsame, hother, horder, hfirst, hpast⟩
    exact ⟨⟨⟨hw, hr, hsame, hother⟩, hcount, horder⟩, hfirst, hpast⟩
  · rintro ⟨⟨hptr, hcount, horder⟩, hfirst, hpast⟩
    exact ⟨hcount.trans_le hptr.held_le, hcount, hptr.writeIndex, hptr.readIndex, hptr.sameTurn, hptr.otherTurn, horder, hfirst, hpast⟩

/-- A buffer that holds nothing is in order in every state of the part. -/
theorem traceOk_of_no_records {s : State} (hp : PointersOk s.trace.write s.trace.read) (h0 : heldBetween s.trace.write s.trace.read = 0)
    (h : s.trace.records = []) : TraceOk s := by
  refine (traceOk_iff s).mpr ⟨⟨hp, ?_, ?_⟩, fun _ _ => h, fun e _ r hr => ?_⟩
  · rw [h, h0]
    rfl
  · rw [h]
    exact .nil
  · rw [h] at hr
    cases hr

theorem TraceOk.of_fields {s t : State} (h : TraceOk s) (htrace : t.trace = s.trace) (hstate : t.lpu.opState = s.lpu.opState)
    (hext : t.lpu.ext = s.lpu.ext) : TraceOk t := by
  rw [traceOk_iff, htrace, hstate, hext]
  exact (traceOk_iff s).mp h

/-- In BYPASS with E unset the buffer need only be in order. -/
theorem TraceOk.of_run_ended {s t : State} (h : TraceOk s) (htrace : t.trace = s.trace) (hstate : t.lpu.opState ≠ .active)
    (hext : t.lpu.ext = none) : TraceOk t := by
  rw [traceOk_iff, htrace]
  exact ⟨((traceOk_iff s).mp h).1, fun ho _ => absurd ho hstate, fun e he => absurd (hext.symm.trans he) nofun⟩

/-- A record of a later cycle appended, or dropped in a full buffer, keeps the order and the count (11 R176). -/
theorem BufferOk.append {b : TraceBuffer} (h : BufferOk b) {r : TraceRecord} (hnew : ∀ x ∈ b.records, x.cycle < r.cycle) :
    BufferOk (appendRecord r b) := by
  by_cases hfull : b.write.index = b.read.index ∧ b.write.wrap ≠ b.read.wrap
  · rw [appendRecord_of_full hfull]
    exact ⟨h.pointers, h.count, h.order⟩
  · obtain ⟨hptr, hheld⟩ := h.pointers.next_write hfull
    rw [appendRecord_of_room hfull]
    refine ⟨hptr, ?_, List.pairwise_append.mpr ⟨h.order, List.pairwise_singleton _ _, fun x hx y hy => ?_⟩⟩
    · rw [List.length_append, h.count, hheld]
      rfl
    · rw [List.mem_singleton.mp hy]
      exact hnew x hx

theorem mem_appendRecord {b : TraceBuffer} {r x : TraceRecord} (hx : x ∈ (appendRecord r b).records) : x ∈ b.records ∨ x = r := by
  unfold appendRecord at hx
  split at hx
  · exact .inl hx
  · simpa using hx

/-- The oldest record taken (11 R177). -/
theorem BufferOk.tail {b : TraceBuffer} (h : BufferOk b) {r : TraceRecord} {rest : List TraceRecord} (hr : b.records = r :: rest) :
    BufferOk { b with records := rest, read := b.read.next } := by
  obtain ⟨hptr, hcount, horder⟩ := h
  rw [hr] at hcount horder
  obtain ⟨hnext, hheld⟩ := hptr.next_read (hcount ▸ Nat.succ_pos _)
  exact ⟨hnext, Nat.succ.inj (hcount.trans hheld.symm), horder.of_cons⟩

/-! ### Counts and appends keep the order -/

section

variable {s : State} {e : Nat} (hb : BufferOk s.trace) (hext : s.lpu.ext = some e) (hnew : ∀ r ∈ s.trace.records, r.cycle < e)

include hb hext hnew

/-- A cycle later than every record is counted, and its record appended or dropped. -/
theorem traceReaches_traceOk : TraceOk (traceReaches e s) := by
  have hlast (r : TraceRecord) (b : TraceBuffer) : (appendRecord r b).lastCounted = b.lastCounted := by
    unfold appendRecord
    split <;> rfl
  refine (traceOk_iff _).mpr ⟨BufferOk.append (b := { s.trace with counter := 0, lastCounted := some e })
    ⟨hb.pointers, hb.count, hb.order⟩ hnew, fun _ hnone => absurd (hext.symm.trans hnone) nofun, fun d hd r hr => ?_⟩
  obtain rfl : e = d := Option.some.inj (hext.symm.trans hd)
  rcases mem_appendRecord hr with hold | rfl
  · exact .inl (hnew r hold)
  · exact .inr ⟨rfl, hlast _ _⟩

/-- The Trace Buffer's work at a cycle later than every record (11 R174). -/
theorem traceWork_traceOk : TraceOk (traceWork e s) := by
  have hpast (b : TraceBuffer) (h : b.records = s.trace.records) : RecordsPast s.lpu.opState s.lpu.ext b := by
    refine ⟨fun _ hnone => absurd (hext.symm.trans hnone) nofun, fun d hd r hr => .inl ?_⟩
    obtain rfl : e = d := Option.some.inj (hext.symm.trans hd)
    exact hnew r (h ▸ hr)
  rcases traceWork_cases e s with ⟨-, h⟩ | ⟨-, -, h⟩ | ⟨-, -, h⟩ <;> rw [h]
  · exact (traceOk_iff s).mpr ⟨hb, hpast _ rfl⟩
  · exact (traceOk_iff _).mpr ⟨⟨hb.pointers, hb.count, hb.order⟩, hpast _ rfl⟩
  · exact traceReaches_traceOk hb hext hnew

end

/-- The row's append is of a cycle of which the buffer holds no record yet (log 5). -/
theorem traceAppends_traceOk {s : State} (h : TraceOk s) : TraceOk (traceAppends s) := by
  cases hdue : traceDue s with
  | none => rwa [traceAppends_of_not_due hdue]
  | some e =>
    rw [traceAppends_of_due hdue]
    obtain ⟨hb, hpast⟩ := (traceOk_iff s).mp h
    obtain ⟨-, hext, -, hnew, -⟩ := traceDue_eq_some.mp hdue
    refine traceReaches_traceOk hb hext fun r hr => ?_
    rcases hpast.past e hext r hr with hlt | ⟨-, hcounted⟩
    · exact hlt
    · exact absurd hcounted hnew

/-- Tables, channels and groups leave the Trace Buffer and the LPU to what comes after them in a cycle (01 R17). -/
theorem composedCycle_trace (order : List (Fin 4)) (e k : Nat) (resync : Bool) (s : State) :
    (composedCycle order e k resync s).1.trace = s.trace ∧ (composedCycle order e k resync s).1.lpu = s.lpu := by
  obtain ⟨-, -, -, hlpu₃, -, -, -, -, -, -, -, htrace₃, -⟩ := (groupsTake_onlyMotion k (channelsTake order k resync (tableWork e s))).fields
  obtain ⟨u, hu, hchannels⟩ := channelsTake_frame order k resync (tableWork e s)
  obtain ⟨-, -, -, hlpu₂, -, -, -, -, -, -, -, htrace₂, -⟩ := hu.fields
  obtain ⟨-, -, -, hlpu₁, -, -, -, -, -, -, htrace₁, -⟩ := (tableWork_onlyApplied e s).fields
  rw [composedCycle, htrace₃, hlpu₃, hchannels]
  exact ⟨htrace₂.trans htrace₁, hlpu₂.trans hlpu₁⟩

/-- An accepted cycle moves E above every record held (01 R14, R17; 11 R174). -/
theorem acceptedCycle_traceOk (order : List (Fin 4)) {e : Nat} (k : Nat) (resync : Bool) (cycle : BitVec 16) {s : State}
    (ho : s.lpu.opState = .active) (hup : ∀ d, s.lpu.ext = some d → d < e) (h : TraceOk s) :
    TraceOk (acceptedCycle order e k resync (s.onLpu (acceptLpu e cycle))) := by
  obtain ⟨hb, hpast⟩ := (traceOk_iff s).mp h
  have hnew : ∀ r ∈ s.trace.records, r.cycle < e := by
    intro r hr
    cases hext : s.lpu.ext with
    | none =>
      rw [hpast.none_first ho hext] at hr
      cases hr
    | some d =>
      have hde := hup d hext
      rcases hpast.past d hext r hr with hlt | ⟨heq, -⟩ <;> omega
  obtain ⟨htrace, hlpu⟩ := composedCycle_trace order e k resync (s.onLpu (acceptLpu e cycle))
  rw [acceptedCycle_eq]
  generalize composedCycle order e k resync (s.onLpu (acceptLpu e cycle)) = sp at htrace hlpu
  have hworked : TraceOk (traceWork e (publish sp.2 sp.1)) := by
    refine traceWork_traceOk ?_ ?_ ?_
    · show BufferOk sp.1.trace
      rwa [htrace]
    · show sp.1.lpu.ext = some e
      rw [hlpu]
      rfl
    · show ∀ r ∈ sp.1.trace.records, r.cycle < e
      rwa [htrace]
  exact hworked

/-! ### Requests and reset events -/

/-- TRACE_SET empties the buffer or leaves its records (11 R173). -/
theorem setTrace_eq (g : Fin 4) (d : Nat) (on : Bool) (b : TraceBuffer) :
    setTrace g d on b = { b with
      group := g, decimation := d, enable := on, counter := 0
      records := if g = b.group then b.records else []
      read := if g = b.group then b.read else b.write } := by
  unfold setTrace
  split <;> rfl

theorem setTrace_traceOk (g : Fin 4) (d : Nat) (on : Bool) {s : State} (h : TraceOk s) : TraceOk (s.onTrace (setTrace g d on)) := by
  obtain ⟨hb, hpast⟩ := (traceOk_iff s).mp h
  by_cases hg : g = s.trace.group
  · have hset : setTrace g d on s.trace = { s.trace with group := g, decimation := d, enable := on, counter := 0 } := by
      simp [setTrace, hg]
    rw [traceOk_iff, State.onTrace_trace, hset]
    exact ⟨⟨hb.pointers, hb.count, hb.order⟩, hpast.none_first, hpast.past⟩
  · obtain ⟨hptr, h0⟩ := pointersOk_self hb.pointers.writeIndex
    have hset : setTrace g d on s.trace = { s.trace.empty with group := g, decimation := d, enable := on, counter := 0 } := by
      simp [setTrace, hg]
    exact traceOk_of_no_records (by rwa [State.onTrace_trace, hset]) (by rwa [State.onTrace_trace, hset])
      (by rw [State.onTrace_trace, hset]; rfl)

theorem ownTraceSet_traceOk (g d en : Byte) {s : State} (h : TraceOk s) : TraceOk (ownTraceSet g d en s).2 := by
  unfold ownTraceSet
  repeat' split
  all_goals first | exact h | exact setTrace_traceOk _ _ _ h

theorem ownReadTrace_traceOk {s : State} (h : TraceOk s) : TraceOk (ownReadTrace s).2 := by
  unfold ownReadTrace
  split
  · exact h
  · rename_i r rest hr
    obtain ⟨hb, hpast⟩ := (traceOk_iff s).mp h
    refine (traceOk_iff _).mpr ⟨hb.tail hr, fun ho hnone => ?_, fun e he x hx => hpast.past e he x ?_⟩
    · exact absurd (hr.symm.trans (hpast.none_first ho hnone)) nofun
    · rw [hr]
      exact List.mem_cons_of_mem _ hx

theorem OnlyMotion.traceOk {s t : State} (k : OnlyMotion s t) (h : TraceOk s) : TraceOk t := by
  obtain ⟨-, -, -, hlpu, -, -, -, -, -, -, -, htrace, -⟩ := k.fields
  exact h.of_fields htrace (congrArg Lpu.opState hlpu) (congrArg Lpu.ext hlpu)

theorem OnlyApplied.traceOk {s t : State} (k : OnlyApplied s t) (h : TraceOk s) : TraceOk t := by
  obtain ⟨-, -, -, hlpu, -, -, -, -, -, -, htrace, -⟩ := k.fields
  exact h.of_fields htrace (congrArg Lpu.opState hlpu) (congrArg Lpu.ext hlpu)

/-- START empties the buffer (11 R179). -/
theorem startRun_traceOk {s : State} (h : TraceOk s) : TraceOk (startRun s) := by
  obtain ⟨hptr, h0⟩ := pointersOk_self ((traceOk_iff s).mp h).1.pointers.writeIndex
  exact traceOk_of_no_records hptr h0 rfl

/-- HALT leaves the records for READ_TRACE, with E unset (01 R11). -/
theorem haltRun_traceOk {s : State} (h : TraceOk s) : TraceOk (haltRun s) := by
  have hended : TraceOk (runEnds s) := h.of_run_ended rfl nofun rfl
  exact ((haltAllLiveDue_onlyApplied (runEnds s)).trans (onTables_onlyApplied _ dropChanges)).traceOk hended

/-- A commit acts on tables, rollers, groups and the outbound pass (08 R143). -/
theorem ownCommit_traceOk (mask presence : Byte) (effective : BitVec 64) (blend : BitVec 16) {s : State} (h : TraceOk s) :
    TraceOk (ownCommit mask presence effective blend s).2 := by
  unfold ownCommit commitActive commitBypass noteStation
  simp only
  repeat' split
  all_goals exact h

/-- Every request keeps the Trace Buffer in order (11 R176). -/
theorem own_traceOk (r : Request) {s : State} (h : TraceOk s) : TraceOk (own r s).2 := by
  cases r with
  | identify | readStatus | clearFlags => exact h
  | start =>
    show TraceOk (ownStart s).2
    unfold ownStart
    repeat' split
    all_goals first | exact h | exact startRun_traceOk h
  | halt =>
    show TraceOk (ownHalt s).2
    unfold ownHalt
    repeat' split
    all_goals first | exact h | exact haltRun_traceOk h
  | group g a => exact (ownGroup_only g a s).traceOk h
  | readEntry t i c =>
    show TraceOk (ownReadEntry t i c s).2
    unfold ownReadEntry
    repeat' split
    all_goals exact h
  | writeEntry t i bs => exact (ownWriteEntry_only t i bs s).traceOk h
  | setLive t v => exact (ownSetLive_only t v s).traceOk h
  | commit m p e b => exact ownCommit_traceOk m p e b h
  | cancel m => exact (ownCancel_only m s).traceOk h
  | lock m md => exact (ownLock_only m md s).traceOk h
  | freeze => exact (ownFreeze_only s).traceOk h
  | thaw => exact (ownThaw_only s).traceOk h
  | traceSet g d en => exact ownTraceSet_traceOk g d en h
  | readTrace => exact ownReadTrace_traceOk h
  | storeSave =>
    rw [own, ownStoreSave_only]
    exact h
  | restart =>
    rw [own, ownRestart_only]
    exact h

/-- The values of every reset event hold an empty buffer (11 R179). -/
theorem resetValues_traceOk (keep : Bool) (s : State) : TraceOk (resetValues keep s) := by
  obtain ⟨hptr, h0⟩ := pointersOk_self (w := ⟨0, false⟩) (by decide)
  cases keep <;> exact traceOk_of_no_records hptr h0 rfl

theorem withFreezeEntry_traceOk (before : State) {after : State} (h : TraceOk after) : TraceOk (withFreezeEntry before after) := by
  unfold withFreezeEntry
  split <;> exact h

/-- The load brings the part into BYPASS and leaves the buffer and E (12 R183). -/
theorem completeLoad_traceOk {s : State} (h : TraceOk s) : TraceOk (completeLoad s) := by
  obtain ⟨hb, hpast⟩ := (traceOk_iff s).mp h
  have hloaded : (loadTables s).trace = s.trace ∧ (loadTables s).lpu = s.lpu := by
    unfold loadTables
    split <;> exact ⟨rfl, rfl⟩
  obtain ⟨htrace, hlpu⟩ := hloaded
  refine withFreezeEntry_traceOk s ((traceOk_iff _).mpr ?_)
  rw [State.onLpu_trace, State.onLpu_lpu, htrace, hlpu]
  exact ⟨hb, nofun, hpast.past⟩

/-! ### Every step -/

theorem traceOk_keptByParts : KeptByParts TraceOk where
  inputs _ _ _ _ h := h
  certOn s h := withFreezeEntry_traceOk s h
  certOff _ h := h
  motion _ _ hm h := hm.traceOk h
  owner r _ h := own_traceOk r h
  service _ _ h := h
  stores _ _ h := h
  line _ _ hstate hext _ h := h.of_fields rfl hstate hext
  frames _ _ _ _ h := h
  buffers _ _ h := h
  outGone _ h := h
  outCut _ h := h
  header _ _ h := h
  latched s h := by
    unfold latchFirst
    repeat' split
    all_goals exact h
  outField s i h := by
    unfold passOutField
    repeat' split
    all_goals exact h
  traced _ h := traceAppends_traceOk h
  accepted order _ k resync cycle _ ho hup h := acceptedCycle_traceOk order k resync cycle ho hup h
  reset keep s _ := resetValues_traceOk keep s
  power s _ := resetValues_traceOk false s
  load _ _ h := completeLoad_traceOk h

/-- Settles O60: a cycle's count and the append in a buffer with room and in a full one (`traceReaches_of_room`, `traceReaches_of_full`), the row
alone (`traceDue_eq_some`), and the order of the buffer by the invariant principle (`step_keeps`). -/
theorem traceAppendsOrCounts : Obligations.TraceAppendsOrCounts := by
  refine ⟨fun s e => ?cycle, fun _ _ => step_keeps traceOk_keptByParts⟩
  case cycle =>
    intro b full appended dropped
    have hroom (h : ¬ full) : traceReaches e s = appended := traceReaches_of_room e h
    have hfull (h : full) : traceReaches e s = dropped := traceReaches_of_full e h
    refine ⟨traceRecordOf_shows e s, fun hoff => ?_, traceWork_of_below e, fun hon hd => ?_, fun ho hext hon hnew hd => ?_, fun h => ?_⟩
    · rw [traceWork, if_neg (by simpa using hoff)]
    · rw [traceWork_of_reaches e hon hd]
      exact ⟨hroom, hfull⟩
    · have happends : traceAppends s = traceReaches e s := traceAppends_of_due (traceDue_eq_some.mpr ⟨ho, hext, hon, hnew, hd⟩)
      exact ⟨fun h => congrArg Host.Outcome.next (happends.trans (hroom h)), fun h => congrArg Host.Outcome.next (happends.trans (hfull h))⟩
    · exact congrArg Host.Outcome.next (traceAppends_of_not_due (traceDue_eq_none h))

end Sys2Proof.Machine
end

section
/-! SUPPORT. TRACE_SET and READ_TRACE (11 R173, R177): what each answers, and the 64 bytes of a trace record (13 Section 13.3). -/

namespace Sys2Proof.Machine

/-! ### The bytes of a record -/

/-- Bytes within a field of a layout. -/
theorem sliceAt_sliceAt (bs : List Byte) {off n k m : Nat} (h : k + m ≤ n) :
    sliceAt (sliceAt bs off n) k m = sliceAt bs (off + k) m := by
  simp only [sliceAt, List.drop_take, List.drop_drop, List.take_take]
  rw [Nat.min_eq_left (by omega)]

/-- The first 24 bytes of a trace record: what is the same for its group (13 Section 13.3). -/
def traceHead (r : TraceRecord) : List Byte :=
  leBytes 8 r.cycle ++ (leBytes 1 (groupByte ⟨r.group.state, r.group.cause, r.group.dir, false⟩) ++ (leBytes 2 r.blendPos
    ++ (leBytesInt 4 r.speed ++ (leBytesInt 4 r.force ++ (leBytesInt 4 r.load ++ leBytes 1 (bitsOf r.members.toList))))))

@[simp] theorem traceHead_length (r : TraceRecord) : (traceHead r).length = 24 := by simp [traceHead]

@[simp] theorem traceRollerBytes_length (r : TraceRoller) : (traceRollerBytes r).length = 10 := by simp [traceRollerBytes]

/-- A trace record: the head, then ten bytes per roller (13 Section 13.3). -/
theorem traceBytes_eq (r : TraceRecord) : traceBytes r = traceHead r ++ r.rollers.toList.flatMap traceRollerBytes := by
  simp only [traceBytes, traceHead, List.append_assoc]

theorem traceBytes_length (r : TraceRecord) : (traceBytes r).length = 64 := by
  simp [traceBytes_eq, Quad.toList]

theorem intAt_of_slice {bs : List Byte} {off n : Nat} {x : Int} (h : sliceAt bs off n = leBytesInt n x) :
    intAt bs off n = Int.bmod x (256 ^ n) := by
  rw [intAt, h, fromLEInt_leBytesInt]

theorem traceHead_at (r : TraceRecord) {k n : Nat} (h : k + n ≤ 24) : sliceAt (traceBytes r) k n = sliceAt (traceHead r) k n := by
  rw [traceBytes_eq, sliceAt_append_left (by rwa [traceHead_length])]

/-- The items of a record that are the same for its group, at their places (13 Section 13.3). -/
theorem traceBytes_head (r : TraceRecord) :
    sliceAt (traceBytes r) 0 8 = leBytes 8 r.cycle
      ∧ sliceAt (traceBytes r) 8 1 = leBytes 1 (groupByte ⟨r.group.state, r.group.cause, r.group.dir, false⟩)
      ∧ sliceAt (traceBytes r) 9 2 = leBytes 2 r.blendPos ∧ sliceAt (traceBytes r) 11 4 = leBytesInt 4 r.speed
      ∧ sliceAt (traceBytes r) 15 4 = leBytesInt 4 r.force ∧ sliceAt (traceBytes r) 19 4 = leBytesInt 4 r.load
      ∧ sliceAt (traceBytes r) 23 1 = leBytes 1 (bitsOf r.members.toList) := by
  have hat {k n : Nat} (h : k + n ≤ 24) := traceHead_at r h
  exact ⟨hat (by omega), hat (by omega), hat (by omega), hat (by omega), hat (by omega), hat (by omega), hat (by omega)⟩

/-- The items of each roller in a record, at their places (13 Section 13.3). -/
theorem traceBytes_roller (r : TraceRecord) (i : Fin 4) :
    sliceAt (traceBytes r) (24 + 10 * i) 4 = leBytesInt 4 (limitTo 2147483647 (r.rollers.get i).speed)
      ∧ sliceAt (traceBytes r) (28 + 10 * i) 4 = leBytesInt 4 (r.rollers.get i).setpoint
      ∧ sliceAt (traceBytes r) (32 + 10 * i) 2 = leBytesInt 2 (r.rollers.get i).error := by
  have hfield : sliceAt (traceBytes r) (24 + 10 * i) 10 = traceRollerBytes (r.rollers.get i) := by
    have h := sliceAt_quad traceRollerBytes traceRollerBytes_length r.rollers i (traceHead r) []
    rwa [traceHead_length, List.append_nil, ← traceBytes_eq] at h
  have hat (k m : Nat) (h : k + m ≤ 10) :
      sliceAt (traceBytes r) (24 + k + 10 * i) m = sliceAt (traceRollerBytes (r.rollers.get i)) k m := by
    rw [Nat.add_right_comm, ← sliceAt_sliceAt _ h, hfield]
  exact ⟨hat 0 4 (by omega), hat 4 4 (by omega), hat 8 2 (by omega)⟩

/-- A speed limited to ±2,147,483,647 fits its four bytes (13 Section 13.3). -/
theorem bmod_limitTo (v : Int) : Int.bmod (limitTo 2147483647 v) (2 ^ 32) = max (-2147483647) (min v 2147483647) := by
  rw [limitTo, clampAbs_eq]
  exact Int.bmod_eq_of_le_mul_two (by omega) (by omega)

/-! ### TRACE_SET -/

theorem onOff_of_lt {v : Byte} (h : v.toNat < 2) : onOff v = some (decide (v.toNat = 1)) := by
  unfold onOff
  obtain hv | hv : v.toNat = 0 ∨ v.toNat = 1 := by omega
  all_goals simp [hv]

theorem onOff_of_gt {v : Byte} (h : 1 < v.toNat) : onOff v = none := by
  unfold onOff
  split
  · omega
  · omega
  · rfl

/-- A byte written of its own number. -/
theorem leBytes_byte (b : Byte) : leBytes 1 b.toNat = [b] := by
  simp [leBytes]

theorem leBytes_onOff {v : Byte} (h : v.toNat < 2) : leBytes 1 (decide (v.toNat = 1)).toNat = [v] := by
  rw [← leBytes_byte]
  obtain hv | hv : v.toNat = 0 ∨ v.toNat = 1 := by omega
  all_goals simp [hv]

theorem ownTraceSet_done {gb d en : Byte} {g : Fin 4} (hg : gb.toNat = g.val) (hlo : 1 ≤ d.toNat) (hhi : d.toNat ≤ 64)
    (hen : en.toNat < 2) (s : State) :
    let b := setTrace g d.toNat (decide (en.toNat = 1)) s.trace
    own (.traceSet gb d en) s = (⟨.done, [gb, d, en] ++ leBytes 2 b.held⟩, { s with trace := b }) := by
  intro b
  have hlt : gb.toNat < 4 := hg ▸ g.isLt
  have hfin : (⟨gb.toNat, hlt⟩ : Fin 4) = g := Fin.ext hg
  have hrange : inRange 1 64 d.toNat = true := by simp [inRange, hlo, hhi]
  have hpayload : leBytes 1 g.val ++ leBytes 1 d.toNat ++ leBytes 1 (decide (en.toNat = 1)).toNat = [gb, d, en] := by
    rw [← hg, leBytes_byte, leBytes_byte, leBytes_onOff hen]
    rfl
  rw [own, ownTraceSet, onOff_of_lt hen]
  simp only
  rw [dif_pos hlt, if_pos hrange, hfin, ← hpayload]
  rfl

theorem ownTraceSet_invalid {gb d en : Byte} (h : 3 < gb.toNat ∨ d.toNat = 0 ∨ 64 < d.toNat ∨ 1 < en.toNat) (s : State) :
    own (.traceSet gb d en) s = (plainReply .invalid, s) := by
  rw [own, ownTraceSet]
  split
  · rfl
  · rename_i v hv
    split
    · rw [if_neg]
      · rfl
      · have hen : ¬ 1 < en.toNat := fun hgt => absurd ((onOff_of_gt hgt).symm.trans hv) nofun
        simp only [inRange, Bool.and_eq_true, decide_eq_true_eq]
        omega
    · rfl

/-! ### READ_TRACE -/

theorem ownReadTrace_empty {s : State} (h : s.trace.records = []) : own .readTrace s = (plainReply .done, s) := by
  rw [own, ownReadTrace, h]

theorem ownReadTrace_oldest {s : State} {r : TraceRecord} {rest : List TraceRecord} (h : s.trace.records = r :: rest) :
    own .readTrace s = (⟨.done, traceBytes r⟩, s.onTrace fun b => { b with records := rest, read := b.read.next }) := by
  rw [own, ownReadTrace, h]

/-- Settles O59: the layout of a record (`traceBytes_head`, `traceBytes_roller`), and the two requests by their owners. -/
theorem traceRequests : Obligations.TraceRequests := by
  refine ⟨fun r => ?layout, fun s htakes => ⟨fun gb d en g hg hlo hhi hen => ?set, fun gb d en h => ?refused, fun h => ?empty,
    fun r rest h => ?oldest⟩⟩
  case layout =>
    obtain ⟨hcycle, hgroup, hblend, hspeed, hforce, hload, hmembers⟩ := traceBytes_head r
    refine ⟨traceBytes_length r, numAt_of_slice hcycle, numAt_of_slice_lt hgroup (groupByte_lt _), numAt_of_slice hblend,
      intAt_of_slice hspeed, intAt_of_slice hforce, intAt_of_slice hload, testBit_of_slice hmembers (by simp), fun i => ?_⟩
    obtain ⟨hv, hsetpoint, herror⟩ := traceBytes_roller r i
    exact ⟨(intAt_of_slice hv).trans (bmod_limitTo _), intAt_of_slice hsetpoint, intAt_of_slice herror⟩
  case set =>
    have hown := ownTraceSet_done hg hlo hhi hen s
    rw [setTrace_eq] at hown
    exact exec_replied rfl htakes hown nofun
  case refused => exact exec_replied rfl htakes (ownTraceSet_invalid h s) nofun
  case empty => exact exec_replied rfl htakes (ownReadTrace_empty h) nofun
  case oldest =>
    obtain ⟨t, hexec, hreplied⟩ := exec_replied (c := .readTrace) rfl htakes (ownReadTrace_oldest h) nofun
    exact ⟨t, hexec, hreplied, traceBytes_length r⟩

end Sys2Proof.Machine
end

section
/-! SUPPORT. The Parameter Store (Chapter 12): a save of the active copies (R181, R182), and the load that gives both copies of every table at
the entry into BYPASS (R183), after power too (R180; log 19). -/

namespace Sys2Proof.Machine

/-! ### The save -/

section

variable {s : State}

theorem ownStoreSave_busy {snap : Tables} (h : s.store.state = .saving snap) : own .storeSave s = (⟨.busy, [1]⟩, s) := by
  simp only [own, ownStoreSave, storeReply, h]
  rfl

/-- The store state that a refused STORE_SAVE replies with (13 Section 13.1). -/
theorem storeReply_not_saving (h : ∀ snap, s.store.state ≠ .saving snap) (c : ResultCode) :
    storeReply c s = (⟨c, [if s.store.state = .failed then 2 else 0]⟩, s) := by
  cases hstate : s.store.state with
  | saving snap => exact absurd hstate (h snap)
  | idle | failed => simp [storeReply, hstate, storeCode, leBytes]

/-- Outside SAVING a STORE_SAVE is refused or takes its snapshot, as a RESTART waits or not (12 R181). -/
theorem ownStoreSave_not_saving (h : ∀ snap, s.store.state ≠ .saving snap) : own .storeSave s =
    if s.store.restart.isSome then storeReply .state s
    else storeReply .accepted (s.onStore fun x => { x with state := .saving s.tables.active, image := none }) := by
  cases hstate : s.store.state with
  | saving snap => exact absurd hstate (h snap)
  | idle | failed => simp only [own, ownStoreSave, hstate]

theorem ownStoreSave_waits (h : ∀ snap, s.store.state ≠ .saving snap) (hwait : s.store.restart ≠ none) :
    own .storeSave s = (⟨.state, [if s.store.state = .failed then 2 else 0]⟩, s) := by
  rw [ownStoreSave_not_saving h, if_pos (Option.isSome_iff_ne_none.mpr hwait), storeReply_not_saving h]

theorem ownStoreSave_accepted (h : ∀ snap, s.store.state ≠ .saving snap) (hfree : s.store.restart = none) :
    own .storeSave s = (⟨.accepted, [1]⟩, { s with store := { s.store with state := .saving s.tables.active, image := none } }) := by
  rw [ownStoreSave_not_saving h, hfree]
  rfl

theorem saveDone_verified {snap : Tables} (h : s.store.state = .saving snap) : saveDone true s = { s with store := { s.store with
    state := .idle, image := some { contents := tablesBytes snap, check := crc32 (tablesBytes snap) } } } := by
  simp only [saveDone, h]
  rfl

theorem saveDone_failed {snap : Tables} (h : s.store.state = .saving snap) :
    saveDone false s = { s with store := { s.store with state := .failed, fail := true } } := by
  simp only [saveDone, h]
  rfl

end

/-- Settles O9: the request by its owner's three answers, and the completion by its two outcomes. -/
theorem storeSavesSnapshot : Obligations.StoreSavesSnapshot := by
  refine ⟨fun s htakes => ⟨fun ⟨snap, hsaving⟩ => ?busy, fun hfree hwait => ?waits, fun hfree hnone => ?accepted⟩,
    fun s snap hsaving => ⟨?verified, ?failed⟩⟩
  case busy => exact exec_replied rfl htakes (ownStoreSave_busy hsaving) nofun
  case waits => exact exec_replied rfl htakes (ownStoreSave_waits hfree hwait) nofun
  case accepted => exact exec_replied rfl htakes (ownStoreSave_accepted hfree hnone) nofun
  case verified => exact congrArg Host.Outcome.next (saveDone_verified hsaving)
  case failed => exact congrArg Host.Outcome.next (saveDone_failed hsaving)

/-! ### The load -/

/-- The load from a valid image (12 R183). -/
theorem loadTables_valid {s : State} {im : StoreImage} (him : s.store.image = some im) (hcheck : crc32 im.contents = im.check) :
    loadTables s = { s with tables := { s.tables with staging := tablesOf im.contents, active := tablesOf im.contents } } := by
  have hvalid : validImage s.store.image = some (tablesOf im.contents) := by rw [him]; exact if_pos hcheck
  rw [loadTables, hvalid]
  rfl

theorem validImage_eq_none {o : Option StoreImage} (h : o = none ∨ ∃ im, o = some im ∧ crc32 im.contents ≠ im.check) :
    validImage o = none := by
  rcases h with rfl | ⟨im, rfl, hcheck⟩
  · rfl
  · exact if_neg hcheck

/-- The load without a valid image (12 R183). -/
theorem loadTables_invalid {s : State} (h : validImage s.store.image = none) : loadTables s = { s with
    tables := { s.tables with staging := factoryTables, active := factoryTables }
    store := { s.store with invalid := true } } := by
  rw [loadTables, h]
  rfl

/-- The completed load: the loaded tables in BYPASS, with the entry into freeze where its condition then holds (12 R183, 09 R157). -/
theorem completeLoad_eq {s : State} (hstarting : s.lpu.opState = .starting) :
    completeLoad s = if s.cert && s.tables.freezeFlag then freezeEntry ((loadTables s).onLpu fun x => { x with opState := .bypass })
      else (loadTables s).onLpu fun x => { x with opState := .bypass } := by
  obtain ⟨-, -, hcert, hflag⟩ := loadTables_spec s
  have hin : inFreeze ((loadTables s).onLpu fun x => { x with opState := .bypass }) = (s.cert && s.tables.freezeFlag) := by
    rw [← hcert, ← hflag]
    rfl
  split
  · next hcond => exact withFreezeEntry_enters (not_inFreeze_of_starting hstarting) (hin.trans hcond)
  · next hcond => exact withFreezeEntry_of_not_inFreeze s (hin.trans (Bool.eq_false_iff.mpr hcond))

/-- The load sets STORE_INVALID where the image is not valid, and leaves locks, pins and LIVE flags (12 R183). -/
theorem loadTables_keeps (s : State) : (loadTables s).store.invalid = (s.store.invalid || (validImage s.store.image).isNone)
    ∧ (loadTables s).tables.ctl = s.tables.ctl := by
  unfold loadTables
  cases validImage s.store.image with
  | some t => exact ⟨(Bool.or_false _).symm, rfl⟩
  | none => exact ⟨(Bool.or_true _).symm, rfl⟩

theorem powerUp_ctl (s : State) (tb : Table) : (powerUp s).tables.ctl.get tb = TableCtl.initial := by
  rw [show (powerUp s).tables.ctl = State.reset.tables.ctl from congrArg (·.tables.ctl) (volatileLost_eq true s), reset_ctl]

/-- The load after power has come: the image's tables, or the factory defaults with STORE_INVALID, on UNLOCKED tables (12 R180, R183, 09
R153). -/
theorem completeLoad_powerUp (s : State) : (completeLoad (powerUp s)).lpu.opState = .bypass
    ∧ (completeLoad (powerUp s)).tables.staging = (completeLoad (powerUp s)).tables.active
    ∧ (completeLoad (powerUp s)).tables.active = (validImage s.store.image).getD factoryTables
    ∧ (completeLoad (powerUp s)).store.invalid = (validImage s.store.image).isNone
    ∧ ∀ tb, (completeLoad (powerUp s)).tables.ctl.get tb = TableCtl.initial := by
  have hunfrozen : ((powerUp s).cert && (powerUp s).tables.freezeFlag) = false := Bool.and_false _
  obtain ⟨hactive, hstaging, -⟩ := loadTables_spec (powerUp s)
  obtain ⟨hinvalid, hctl⟩ := loadTables_keeps (powerUp s)
  rw [completeLoad_eq rfl, hunfrozen, if_neg Bool.false_ne_true]
  exact ⟨rfl, hstaging, hactive, hinvalid, fun tb => (congrArg (·.get tb) hctl).trans (powerUp_ctl s tb)⟩

/-- Settles O8: the load by its two outcomes with the entry of `completeLoad_eq`, and power that goes and comes by `volatileLost_eq`. -/
theorem storeLoadSetsBothCopies : Obligations.StoreLoadSetsBothCopies := by
  refine ⟨fun s hp hr hstarting => ⟨fun im him hcheck => ?valid, fun h => ?invalid⟩, fun s => ?power⟩
  case valid =>
    refine congrArg Host.Outcome.next ((loadComplete_of_starting hp hr hstarting).trans ?_)
    rw [completeLoad_eq hstarting, loadTables_valid him hcheck]
    rfl
  case invalid =>
    refine congrArg Host.Outcome.next ((loadComplete_of_starting hp hr hstarting).trans ?_)
    rw [completeLoad_eq hstarting, loadTables_invalid (validImage_eq_none h)]
    rfl
  case power =>
    refine ⟨powerDown s, powerUp s, rfl, rfl, rfl, rfl, rfl, rfl, rfl, rfl, rfl, fun hr => ?_⟩
    exact ⟨_, congrArg Host.Outcome.next (loadComplete_of_starting rfl hr rfl), completeLoad_powerUp s⟩

end Sys2Proof.Machine
end

section
/-! SUPPORT. The layouts of the five tables read back (13 Section 13.5): each entry from its bytes, and the tables from the contents of an image
(12 R182, R183). -/

namespace Sys2Proof.Machine

/-! ### Fields read back -/

/-- A field of a layout is read back, where its number fits it. -/
theorem fromLE_of_slice {bs : List Byte} {off n x : Nat} (h : sliceAt bs off n = leBytes n x) (hx : x < 256 ^ n) :
    fromLE (sliceAt bs off n) = x := numAt_of_slice_lt h hx

/-- A signed field of a layout is read back, where its number fits it. -/
theorem fromLEInt_of_slice {bs : List Byte} {off n : Nat} {x : Int} (h : sliceAt bs off n = leBytesInt n x)
    (hlo : -((256 ^ n : Nat) : Int) ≤ 2 * x) (hhi : 2 * x < (256 ^ n : Nat)) : fromLEInt (sliceAt bs off n) = x := by
  rw [h, fromLEInt_leBytesInt]
  exact Int.bmod_eq_of_le_mul_two (by omega) (by omega)

/-- An offset is read back, an absent one from all ones (13 R186). -/
theorem offsetOf_offsetBytes {o : Option Nat} (h : ∀ r, o = some r → r < 65535) : offsetOf (offsetBytes o) = o := by
  cases o with
  | none => rfl
  | some r =>
    have hr := h r rfl
    have hread : fromLE (offsetBytes (some r)) = r := fromLE_leBytes 2 r (by omega)
    rw [offsetOf, hread, if_neg (by omega)]

/-- A group is read back, NONE from 255 (13 R186). -/
theorem groupOf_groupCode {o : Option Nat} (h : ∀ g, o = some g → g < 255) : groupCode o < 256 ∧ groupOf (groupCode o) = o := by
  cases o with
  | none => exact ⟨by decide, rfl⟩
  | some g =>
    have hg := h g rfl
    exact ⟨by show g < 256; omega, if_neg (by show ¬ g = 255; omega)⟩

/-! ### Entries read back -/

@[simp] theorem offsetBytes_length (o : Option Nat) : (offsetBytes o).length = 2 := by cases o <;> rfl

@[simp] theorem cellBytes_length (e : CellEntry) : (cellBytes e).length = 12 := by simp [cellBytes]

@[simp] theorem slotsBytes_length (e : SlotsEntry) : (slotsBytes e).length = 5 := by cases e <;> rfl

@[simp] theorem rollersBytes_length (e : RollersEntry) : (rollersBytes e).length = 30 := by simp [rollersBytes]

@[simp] theorem groupsBytes_length (e : GroupsEntry) : (groupsBytes e).length = 11 := by simp [groupsBytes]

@[simp] theorem loadsBytes_length (e : LoadsEntry) : (loadsBytes e).length = 10 := by simp [loadsBytes]

/-- Where the fields of a CELL entry stand (13 Section 13.5). -/
theorem cellBytes_fields (e : CellEntry) :
    sliceAt (cellBytes e) 0 1 = leBytes 1 e.station ∧ sliceAt (cellBytes e) 1 2 = leBytes 2 e.cycleUs
      ∧ sliceAt (cellBytes e) 3 2 = leBytes 2 e.toleranceUs ∧ sliceAt (cellBytes e) 5 1 = leBytes 1 e.missLimit
      ∧ sliceAt (cellBytes e) 6 2 = leBytes 2 e.standstill ∧ sliceAt (cellBytes e) 8 2 = leBytes 2 e.slotAreaLen
      ∧ sliceAt (cellBytes e) 10 2 = offsetBytes e.report := by
  simp [cellBytes, sliceAt_append_left, sliceAt_append_right, sliceAt_whole]

theorem cellOf_cellBytes {e : CellEntry} (h : cellFits e) : cellOf (cellBytes e) = e := by
  obtain ⟨hstation, hcycle, htolerance, hmiss, hstandstill, hlen, hreport⟩ := h
  obtain ⟨f0, f1, f3, f5, f6, f8, f10⟩ := cellBytes_fields e
  rw [cellOf, fromLE_of_slice f0 hstation, fromLE_of_slice f1 hcycle, fromLE_of_slice f3 htolerance, fromLE_of_slice f5 hmiss,
    fromLE_of_slice f6 hstandstill, fromLE_of_slice f8 hlen, f10, offsetOf_offsetBytes hreport]

theorem slotsOf_slotsBytes {e : SlotsEntry} (h : slotsFits e) : slotsOf (slotsBytes e) = some e := by
  cases e with
  | absent => rfl
  | present o i =>
    obtain ⟨ho, hi⟩ := h
    exact congrArg₂ (fun x y => some (SlotsEntry.present x y)) (fromLE_of_slice rfl ho) (fromLE_of_slice rfl hi)

/-- Where the fields of a ROLLERS entry stand (13 Section 13.5). -/
theorem rollersBytes_fields (e : RollersEntry) :
    sliceAt (rollersBytes e) 0 4 = leBytes 4 e.scale ∧ sliceAt (rollersBytes e) 4 1 = leBytesInt 1 e.direction
      ∧ sliceAt (rollersBytes e) 5 1 = leBytes 1 e.window ∧ sliceAt (rollersBytes e) 6 4 = leBytes 4 e.jumpLimit
      ∧ sliceAt (rollersBytes e) 10 4 = leBytes 4 e.forceLimit ∧ sliceAt (rollersBytes e) 14 1 = leBytes 1 e.sampleMissLimit
      ∧ sliceAt (rollersBytes e) 15 4 = leBytes 4 e.vmax ∧ sliceAt (rollersBytes e) 19 2 = leBytes 2 e.aMax
      ∧ sliceAt (rollersBytes e) 21 2 = leBytes 2 e.dStop ∧ sliceAt (rollersBytes e) 23 2 = leBytes 2 e.stageTimeout
      ∧ sliceAt (rollersBytes e) 25 1 = leBytes 1 (groupCode e.group) ∧ sliceAt (rollersBytes e) 26 4 = leBytesInt 4 e.trim := by
  simp [rollersBytes, sliceAt_append_left, sliceAt_append_right, sliceAt_whole]

theorem rollersOf_rollersBytes {e : RollersEntry} (h : rollersFits e) : rollersOf (rollersBytes e) = e := by
  obtain ⟨hscale, hdirLo, hdirHi, hwindow, hjump, hforce, hmiss, hvmax, hamax, hdstop, htimeout, hgroup, htrimLo, htrimHi⟩ := h
  obtain ⟨f0, f4, f5, f6, f10, f14, f15, f19, f21, f23, f25, f26⟩ := rollersBytes_fields e
  obtain ⟨hcode, hgroupRead⟩ := groupOf_groupCode hgroup
  rw [rollersOf, fromLE_of_slice f0 hscale, fromLEInt_of_slice f4 (by omega) (by omega), fromLE_of_slice f5 hwindow,
    fromLE_of_slice f6 hjump, fromLE_of_slice f10 hforce, fromLE_of_slice f14 hmiss, fromLE_of_slice f15 hvmax,
    fromLE_of_slice f19 hamax, fromLE_of_slice f21 hdstop, fromLE_of_slice f23 htimeout, fromLE_of_slice f25 hcode, hgroupRead,
    fromLEInt_of_slice f26 (by omega) (by omega)]

/-- Where the fields of a GROUPS entry stand (13 Section 13.5). -/
theorem groupsBytes_fields (e : GroupsEntry) :
    sliceAt (groupsBytes e) 0 2 = leBytes 2 e.mass ∧ sliceAt (groupsBytes e) 2 1 = leBytes 1 e.loadSet
      ∧ sliceAt (groupsBytes e) 3 2 = leBytes 2 e.kp ∧ sliceAt (groupsBytes e) 5 2 = leBytes 2 e.corrMax
      ∧ sliceAt (groupsBytes e) 7 2 = leBytes 2 e.slipLimit ∧ sliceAt (groupsBytes e) 9 2 = leBytes 2 e.trackBlend := by
  simp [groupsBytes, sliceAt_append_left, sliceAt_append_right, sliceAt_whole]

theorem groupsOf_groupsBytes {e : GroupsEntry} (h : groupsFits e) : groupsOf (groupsBytes e) = e := by
  obtain ⟨hmass, hset, hkp, hcorr, hslip, hblend⟩ := h
  obtain ⟨f0, f2, f3, f5, f7, f9⟩ := groupsBytes_fields e
  rw [groupsOf, fromLE_of_slice f0 hmass, fromLE_of_slice f2 hset, fromLE_of_slice f3 hkp, fromLE_of_slice f5 hcorr,
    fromLE_of_slice f7 hslip, fromLE_of_slice f9 hblend]

/-- Where the fields of a LOADS entry stand (13 Section 13.5). -/
theorem loadsBytes_fields (e : LoadsEntry) :
    sliceAt (loadsBytes e) 0 2 = leBytes 2 e.a ∧ sliceAt (loadsBytes e) 2 4 = leBytes 4 e.b
      ∧ sliceAt (loadsBytes e) 6 2 = leBytes 2 e.c ∧ sliceAt (loadsBytes e) 8 2 = leBytes 2 e.vCreep := by
  simp [loadsBytes, sliceAt_append_left, sliceAt_append_right, sliceAt_whole]

theorem loadsOf_loadsBytes {e : LoadsEntry} (h : loadsFits e) : loadsOf (loadsBytes e) = e := by
  obtain ⟨ha, hb, hc, hcreep⟩ := h
  obtain ⟨f0, f2, f6, f8⟩ := loadsBytes_fields e
  rw [loadsOf, fromLE_of_slice f0 ha, fromLE_of_slice f2 hb, fromLE_of_slice f6 hc, fromLE_of_slice f8 hcreep]

/-! ### The contents of an image -/

/-- The field of one of eight in a layout that ends with the eight one after the other. -/
theorem sliceAt_octo {α : Type} (f : α → List Byte) {n : Nat} (hf : ∀ x, (f x).length = n) (q : Octo α) (i : Fin 8) (a : List Byte) :
    sliceAt (a ++ q.toList.flatMap f) (a.length + n * i) n = f (q.get i) := by
  have hlist : q.toList.flatMap f = (Quad.toList ⟨q.o0, q.o1, q.o2, q.o3⟩).flatMap f
      ++ ((Quad.toList ⟨q.o4, q.o5, q.o6, q.o7⟩).flatMap f ++ []) := by simp [Octo.toList, Quad.toList]
  have hlower (j : Fin 4) := sliceAt_quad f hf ⟨q.o0, q.o1, q.o2, q.o3⟩ j a
    ((Quad.toList ⟨q.o4, q.o5, q.o6, q.o7⟩).flatMap f ++ [])
  have hupper (j : Fin 4) := sliceAt_quad f hf ⟨q.o4, q.o5, q.o6, q.o7⟩ j (a ++ (Quad.toList ⟨q.o0, q.o1, q.o2, q.o3⟩).flatMap f) []
  have hhalf : ((Quad.toList ⟨q.o0, q.o1, q.o2, q.o3⟩).flatMap f).length = n * 4 := by simp [Quad.toList, hf]; omega
  simp only [List.length_append, hhalf, List.append_assoc, Nat.add_assoc, ← Nat.mul_add, ← hlist] at hlower hupper
  fin_cases i
  exacts [hlower 0, hlower 1, hlower 2, hlower 3, hupper 0, hupper 1, hupper 2, hupper 3]

/-- Where each entry stands in the contents of an image: the entries in table-code order (13 Section 13.5). -/
theorem tablesBytes_entries (t : Tables) :
    sliceAt (tablesBytes t) 0 12 = cellBytes t.cell
      ∧ (∀ i : Fin 4, sliceAt (tablesBytes t) (12 + 5 * i) 5 = slotsBytes (t.slots.get i))
      ∧ (∀ i : Fin 4, sliceAt (tablesBytes t) (32 + 30 * i) 30 = rollersBytes (t.rollers.get i))
      ∧ (∀ i : Fin 4, sliceAt (tablesBytes t) (152 + 11 * i) 11 = groupsBytes (t.groups.get i))
      ∧ ∀ i : Fin 8, sliceAt (tablesBytes t) (196 + 10 * i) 10 = loadsBytes (t.loads.get i) := by
  have hslotsLen : (t.slots.toList.flatMap slotsBytes).length = 20 := by simp [Quad.toList]
  have hrollersLen : (t.rollers.toList.flatMap rollersBytes).length = 120 := by simp [Quad.toList]
  have hgroupsLen : (t.groups.toList.flatMap groupsBytes).length = 44 := by simp [Quad.toList]
  have hslots (i : Fin 4) (rest : List Byte) := sliceAt_quad slotsBytes slotsBytes_length t.slots i (cellBytes t.cell) rest
  have hrollers (i : Fin 4) (rest : List Byte) := sliceAt_quad rollersBytes rollersBytes_length t.rollers i
    (cellBytes t.cell ++ t.slots.toList.flatMap slotsBytes) rest
  have hgroups (i : Fin 4) (rest : List Byte) := sliceAt_quad groupsBytes groupsBytes_length t.groups i
    (cellBytes t.cell ++ t.slots.toList.flatMap slotsBytes ++ t.rollers.toList.flatMap rollersBytes) rest
  have hloads (i : Fin 8) := sliceAt_octo loadsBytes loadsBytes_length t.loads i
    (cellBytes t.cell ++ t.slots.toList.flatMap slotsBytes ++ t.rollers.toList.flatMap rollersBytes ++ t.groups.toList.flatMap groupsBytes)
  simp only [List.length_append, cellBytes_length, hslotsLen, hrollersLen, hgroupsLen, List.append_assoc] at hslots hrollers hgroups hloads
  refine ⟨?_, fun i => hslots i _, fun i => hrollers i _, fun i => hgroups i _, hloads⟩
  rw [tablesBytes, sliceAt_append_left (by simp), sliceAt_whole (cellBytes_length _)]

/-- The tables are read back from the contents of an image, where every field fits its encoding. -/
theorem tablesOf_tablesBytes {t : Tables} (h : tablesFit t) : tablesOf (tablesBytes t) = t := by
  obtain ⟨hcell, hslots, hrollers, hgroups, hloads⟩ := h
  obtain ⟨hcellAt, hslotsAt, hrollersAt, hgroupsAt, hloadsAt⟩ := tablesBytes_entries t
  have hslotsRead (i : Fin 4) := slotsOf_slotsBytes (hslots i)
  have hrollersRead (i : Fin 4) := rollersOf_rollersBytes (hrollers i)
  have hgroupsRead (i : Fin 4) := groupsOf_groupsBytes (hgroups i)
  have hloadsRead (i : Fin 8) := loadsOf_loadsBytes (hloads i)
  simp only [tablesOf, hcellAt, hslotsAt, hrollersAt, hgroupsAt, hloadsAt, cellOf_cellBytes hcell, hslotsRead, hrollersRead, hgroupsRead,
    hloadsRead, Option.getD_some]
  rfl

/-! ### What a verified save writes -/

/-- Settles O10: the check word is the one over the contents, and the contents are read back by `tablesOf_tablesBytes`. -/
theorem savedImageLoadsBack : Obligations.SavedImageLoadsBack := by
  intro s snap hsaving hfit
  refine ⟨_, congrArg Host.Outcome.next (saveDone_verified hsaving), ?_⟩
  exact (if_pos rfl).trans (congrArg some (tablesOf_tablesBytes hfit))

end Sys2Proof.Machine
end

section
/-! SUPPORT. RESTART (12 R184, R185): its judgement, its wait against the line silence timer, the requests that act before its effect, and the
state it leaves. -/

namespace Sys2Proof.Machine

/-! ### The judgement -/

section

variable {s : State}

theorem ownRestart_barred (h : inFreeze s = true) : own .restart s = (⟨.barred, []⟩, s) := if_pos h

theorem ownRestart_refused (hfree : inFreeze s = false) (h : s.lpu.opState = .active ∨ ∃ snap, s.store.state = .saving snap) :
    own .restart s = (⟨.state, []⟩, s) := by
  have hnot : ¬ inFreeze s = true := by simp [hfree]
  rw [own, ownRestart, if_neg hnot]
  rcases h with hactive | ⟨snap, hsaving⟩
  · exact if_pos hactive
  · rw [hsaving]
    exact ite_self _

/-- In BYPASS, with no freeze and no save, a RESTART is accepted where none awaits its effect (12 R184). -/
theorem ownRestart_bypass (hfree : inFreeze s = false) (hbypass : s.lpu.opState = .bypass) (hsave : ∀ snap, s.store.state ≠ .saving snap) :
    own .restart s = if s.store.restart.isSome then (plainReply .done, s)
      else (plainReply .accepted, s.onStore fun x => { x with restart := some { waited := 0, entry := none } }) := by
  have hnot : ¬ inFreeze s = true := by simp [hfree]
  have hinactive : ¬ s.lpu.opState = .active := by simp [hbypass]
  rw [own, ownRestart, if_neg hnot, if_neg hinactive]
  cases hstate : s.store.state with
  | saving snap => exact absurd hstate (hsave snap)
  | idle | failed => rfl

/-- While a RESTART awaits its effect, another one changes nothing (12 R184). -/
theorem ownRestart_again (h : s.store.restart ≠ none) : (own .restart s).1.code ≠ .accepted ∧ (own .restart s).2 = s := by
  have hsome := Option.isSome_iff_ne_none.mpr h
  unfold own ownRestart
  simp only [hsome, if_true]
  repeat' split
  all_goals exact ⟨nofun, rfl⟩

/-- A RESTART row that is not accepted (12 R184). -/
theorem exec_restart_not_accepted {c : ResultCode} (h : takesRequests s = true) (hown : own .restart s = (plainReply c, s))
    (hc : c ≠ .accepted) : ∃ t, exec .restart s = .next t ∧ Replied (plainReply c) s t := by
  have hreplied := serveRow_replied (r := .restart) h (by rw [hown]; exact fun _ => hc)
  rw [hown] at hreplied
  exact ⟨_, rfl, hreplied⟩

/-- A row's answer goes to the oldest entry that asks for it (log 9). -/
theorem serveRow_eq {r : Request} {e : ReplyEntry} (h : takesRequests s = true) (he : entryFor r s = some e) :
    serveRow r s = linkRestart e (own r s).1 ((serveNow r s).2.onEntry e.id fun x => { x with answer := some (own r s).1 }) := by
  unfold serveRow
  rw [if_pos h, he]
  rfl

/-- An accepted RESTART row waits for its own entry where it came in a frame, from the moment that was taken (12 R184). -/
theorem exec_restart_accepted (h : takesRequests s = true) (hown : own .restart s
      = (plainReply .accepted, s.onStore fun x => { x with restart := some { waited := 0, entry := none } })) :
    ∃ t, exec .restart s = .next t ∧ Replied ⟨.accepted, []⟩ { s with store := { s.store with
      restart := some (match entryFor .restart s with
        | some e => { waited := e.age, entry := some e.id }
        | none => { waited := 0, entry := none }) } } t := by
  refine ⟨_, rfl, ?_⟩
  cases he : entryFor .restart s with
  | none =>
    rw [serveRow_of_no_entry h he, serveNow, hown]
    exact ⟨rfl, ⟨rfl, rfl, rfl, rfl⟩, rfl⟩
  | some e =>
    have hlink : e.kind = 18 ∧ (own .restart s).1.code = .accepted := ⟨kind_of_requestOf (entryFor_spec he).2, by rw [hown]; rfl⟩
    rw [serveRow_eq h he, linkRestart, if_pos hlink, serveNow, hown]
    exact ⟨rfl, ⟨bare_answered _ _ _, bare_answered _ _ _, rfl, rfl⟩, rfl⟩

end

/-! ### The wait -/

/-- The wait of a RESTART ends before the line silence timer does (12 R184, 01 R18; log 7). -/
def LeadsWith (w : RestartWait) (s : State) : Prop :=
  s.store.restart = some w ∧ ∀ a, silenceLeft s = some a → 10000 - w.waited < a

section

variable {s : State} {w : RestartWait}

theorem leadsWith_iff (hw : s.store.restart = some w) : LeadsWith w s ↔ ∀ n, s.lpu.opState = .active → s.lpu.ext ≠ none →
    s.lpu.silenceTimer = some n → 10000 - w.waited < silenceLimit s - n := by
  constructor
  · intro h n hactive he hn
    exact h.2 _ (silenceLeft_eq_some.mpr ⟨hactive, he, n, hn, rfl⟩)
  · refine fun h => ⟨hw, fun a ha => ?_⟩
    obtain ⟨hactive, he, n, hn, rfl⟩ := silenceLeft_eq_some.mp ha
    exact h n hactive he hn

theorem restartLeft_eq (hw : s.store.restart = some w) : restartLeft s = some (10000 - w.waited) := by
  rw [restartLeft, hw]
  rfl

theorem LeadsWith.restartFirst (h : LeadsWith w s) : restartFirst s = true := by
  rw [Machine.restartFirst, restartLeft_eq h.1]
  cases ha : silenceLeft s with
  | none => rfl
  | some a => exact decide_eq_true (h.2 a ha)

/-- A RESTART whose wait ends within the time that passes, before the line silence timer, takes effect in it (12 R184; log 7). -/
theorem LeadsWith.elapse (h : LeadsWith w s) {dt : Nat} (hdt : 10000 - w.waited ≤ dt) : elapse true dt s = restartEffect s := by
  simp [Machine.elapse, within, restartLeft_eq h.1, hdt, h.restartFirst]

/-- RESTART_EFFECT lets the rest of the wait pass (12 R184; log 7). -/
theorem LeadsWith.exec_restartEffect (h : LeadsWith w s) : exec .restartEffect s = .next (restartEffect s) := by
  have hends : restartWaitEnds s = Machine.elapse true (10000 - w.waited) s := by rw [restartWaitEnds, restartLeft_eq h.1]
  exact congrArg Host.Outcome.next (hends.trans (h.elapse le_rfl))

/-- Before the end of the wait, and of the silence time, the timers alone advance (12 R184; log 7). -/
theorem LeadsWith.elapse_before (h : LeadsWith w s) {dt : Nat} (hdt : dt < 10000 - w.waited) :
    Machine.elapse true dt s = advanceTimers dt s := by
  have hrestart : within true dt (restartLeft s) = false := by
    rw [restartLeft_eq h.1]
    exact decide_eq_false (by omega)
  have hsilence : ¬ within true dt (silenceLeft s) = true := by
    cases ha : silenceLeft s with
    | none => simp [within]
    | some a =>
      have := h.2 a ha
      simp [within]
      omega
  rw [elapse_of_no_restart hrestart, if_neg hsilence]

/-- A line silence timer that ends no later expires first, and the RESTART takes effect after it (12 R184, 01 R18; log 7). -/
theorem restartWaitEnds_silent (hw : s.store.restart = some w) {a : Nat} (ha : silenceLeft s = some a) (hle : a ≤ 10000 - w.waited) :
    restartWaitEnds s = restartEffect (silenceExpiry s) := by
  have hlast : restartFirst s = false := by
    rw [restartFirst, ha, restartLeft_eq hw]
    exact decide_eq_false (by omega)
  simp [restartWaitEnds, restartLeft_eq hw, elapse, within, ha, hle, hlast]

/-- After its expiry the line silence timer does not run, so a waiting RESTART leads (01 R18). -/
theorem leadsWith_silenceExpiry (hw : s.store.restart = some w) : LeadsWith w (silenceExpiry s) := by
  obtain ⟨-, -, -, hlpu, -, -, -, -, -, -, -, -, hstore, -⟩ := (lineFault_onlyMotion (s.onLpu Lpu.silenced)).fields
  refine ⟨(congrArg Store.restart hstore).trans hw, fun a ha => ?_⟩
  obtain ⟨-, -, n, hn, -⟩ := silenceLeft_eq_some.mp ha
  rw [show (silenceExpiry s).lpu = s.lpu.silenced from hlpu] at hn
  cases hn

end

/-! ### Requests served while a RESTART waits -/

/-- A waiting RESTART is kept, and the line silence timer is stopped or has as much left as before. -/
structure WaitsAlike (s t : State) : Prop where
  restart : t.store.restart = s.store.restart
  silence : silenceLeft t = none ∨ silenceLeft t = silenceLeft s

theorem WaitsAlike.refl (s : State) : WaitsAlike s s := ⟨rfl, .inr rfl⟩

theorem WaitsAlike.leadsWith {s t : State} {w : RestartWait} (h : WaitsAlike s t) (k : LeadsWith w s) : LeadsWith w t := by
  refine ⟨h.restart.trans k.1, fun a ha => ?_⟩
  rcases h.silence with hnone | hsame
  · rw [hnone] at ha
    cases ha
  · exact k.2 a (hsame.symm.trans ha)

theorem silenceLeft_of_not_active {s : State} (h : s.lpu.opState ≠ .active) : silenceLeft s = none :=
  Option.eq_none_iff_forall_ne_some.mpr fun _ ha => h (silenceLeft_eq_some.mp ha).1

theorem OnlyMotion.waitsAlike {s t : State} (h : OnlyMotion s t) : WaitsAlike s t := by
  rw [h]
  exact ⟨rfl, .inr rfl⟩

/-- Outside ACTIVE the line silence timer does not run, whatever an application does to CELL (01 R18). -/
theorem OnlyApplied.waitsAlike {s t : State} (h : OnlyApplied s t) (hst : s.lpu.opState ≠ .active) : WaitsAlike s t := by
  rw [h]
  exact ⟨rfl, .inl (silenceLeft_of_not_active hst)⟩

theorem haltRun_waitsAlike (s : State) : WaitsAlike s (haltRun s) := by
  obtain ⟨-, -, -, hlpu, -, -, -, -, -, -, -, hstore, -⟩ := (haltAllLiveDue_onlyApplied (runEnds s)).fields
  refine ⟨congrArg Store.restart hstore, .inl (silenceLeft_of_not_active fun hactive => ?_)⟩
  rw [show (haltRun s).lpu = runEdge .bypass s.lpu from hlpu] at hactive
  cases hactive

/-- A live write applies at once outside ACTIVE alone (08 R140). -/
theorem ownWriteEntry_waitsAlike (t i : Byte) (bs : List Byte) (s : State) : WaitsAlike s (ownWriteEntry t i bs s).2 := by
  by_cases hst : s.lpu.opState = .active
  · unfold ownWriteEntry writeAt writePassed
    simp only [hst]
    repeat' split
    all_goals exact ⟨rfl, .inr rfl⟩
  · exact (ownWriteEntry_only t i bs s).waitsAlike hst

/-- A commit applies at once outside ACTIVE alone (08 R143, R144). -/
theorem ownCommit_waitsAlike (mask presence : Byte) (effective : BitVec 64) (blend : BitVec 16) (s : State) :
    WaitsAlike s (ownCommit mask presence effective blend s).2 := by
  unfold ownCommit commitActive commitBypass noteStation
  simp only
  repeat' split
  all_goals first
    | exact .refl s
    | exact ⟨rfl, .inr rfl⟩
    | exact ⟨rfl, .inl (silenceLeft_of_not_active ‹_›)⟩

/-- No request served disturbs the wait of a RESTART (12 R184). -/
theorem own_waitsAlike (r : Request) {s : State} (h : s.store.restart ≠ none) : WaitsAlike s (own r s).2 := by
  cases r with
  | identify | readStatus | clearFlags => exact ⟨rfl, .inr rfl⟩
  | start =>
    show WaitsAlike s (ownStart s).2
    unfold ownStart
    repeat' split
    all_goals first | exact .refl s | exact ⟨rfl, .inl rfl⟩
  | halt =>
    show WaitsAlike s (ownHalt s).2
    unfold ownHalt
    repeat' split
    all_goals first | exact .refl s | exact haltRun_waitsAlike s
  | group g a => exact (ownGroup_only g a s).waitsAlike
  | readEntry t i c =>
    show WaitsAlike s (ownReadEntry t i c s).2
    unfold ownReadEntry
    repeat' split
    all_goals exact .refl s
  | writeEntry t i bs => exact ownWriteEntry_waitsAlike t i bs s
  | setLive t v =>
    show WaitsAlike s (ownSetLive t v s).2
    unfold ownSetLive
    repeat' split
    all_goals exact ⟨rfl, .inr rfl⟩
  | commit m p e b => exact ownCommit_waitsAlike m p e b s
  | cancel m =>
    show WaitsAlike s (ownCancel m s).2
    unfold ownCancel
    split <;> exact ⟨rfl, .inr rfl⟩
  | lock m md =>
    rcases ownLock_cases m md s with hown | ⟨f, -, hown⟩ <;> rw [own, hown] <;> exact ⟨rfl, .inr rfl⟩
  | freeze =>
    show WaitsAlike s (withFreezeEntry s _)
    rcases withFreezeEntry_cases s (s.onTables fun x => { x with freezeFlag := true }) with hown | hown <;> rw [hown] <;>
      exact ⟨rfl, .inr rfl⟩
  | thaw =>
    show WaitsAlike s (ownThaw s).2
    unfold ownThaw
    split <;> exact ⟨rfl, .inr rfl⟩
  | traceSet g d en =>
    rw [own, ownTraceSet_only]
    exact ⟨rfl, .inr rfl⟩
  | readTrace =>
    rw [own, ownReadTrace_only]
    exact ⟨rfl, .inr rfl⟩
  | storeSave =>
    show WaitsAlike s (ownStoreSave s).2
    unfold ownStoreSave
    rw [if_pos (Option.isSome_iff_ne_none.mpr h)]
    split <;> exact .refl s
  | restart =>
    rw [(ownRestart_again h).2]
    exact .refl s

/-- A row served while a RESTART waits leaves that as its owner does: the row's own entry is not noted (12 R184). -/
theorem serveRow_waitsAlike {r : Request} {s : State} (h : takesRequests s = true) (hwait : s.store.restart ≠ none) :
    WaitsAlike s (serveRow r s) := by
  obtain ⟨hserved, -⟩ := serveRow_replied (r := r) h fun hr => by rw [hr]; exact (ownRestart_again hwait).1
  have howner := own_waitsAlike r hwait
  rw [hserved]
  exact ⟨howner.restart, howner.silence⟩

/-! ### The requests taken have acted -/

/-- An entry once the owner has answered the one with a number. -/
def ReplyEntry.answered (id : Nat) (rep : Reply) (x : ReplyEntry) : ReplyEntry := if x.id = id then { x with answer := some rep } else x

theorem linkRestart_withEntries (e : ReplyEntry) (rep : Reply) (s : State) (q o : List ReplyEntry) :
    linkRestart e rep (s.withEntries q o) = (linkRestart e rep s).withEntries q o :=
  ite_through (State.withEntries · q o) .rfl (fun _ => rfl) (fun _ => rfl)

/-- A request in service is served beside other entries as it is alone. -/
theorem answerOf_entriesApart (e : ReplyEntry) : EntriesApart (answerOf e) := by
  intro s q o
  unfold answerOf
  split
  · rfl
  · split
    · rename_i r _
      have hserve : serveNow r (s.withEntries q o) = beside q o (serveNow r s) := by
        rw [serveNow, own_entriesApart]
        rfl
      simp only [hserve, beside, linkRestart_withEntries]
    · rfl

theorem answerOf_answered {e : ReplyEntry} (h : e.answer ≠ none) (s : State) : (answerOf e s).2 = s := by
  obtain ⟨a, ha⟩ := Option.ne_none_iff_exists'.mp h
  rw [answerOf, ha]

/-- Some requests served one after the other, those that have an answer left out (12 R185). -/
def serveAll (l : List ReplyEntry) (s : State) : State := l.foldl (fun s e => (answerOf e s).2) s

theorem serveOutstanding_eq (s : State) : serveOutstanding s = serveAll (awaiting s) s := rfl

theorem serveAll_append (l m : List ReplyEntry) (s : State) : serveAll (l ++ m) s = serveAll m (serveAll l s) := List.foldl_append

theorem serveAll_answered {l : List ReplyEntry} (h : ∀ e ∈ l, e.answer ≠ none) (s : State) : serveAll l s = s := by
  induction l with
  | nil => rfl
  | cons e l ih =>
    obtain ⟨he, hl⟩ := List.forall_mem_cons.mp h
    show serveAll l (answerOf e s).2 = s
    rw [answerOf_answered he, ih hl]

theorem serveAll_withEntries (l : List ReplyEntry) (s : State) (q o : List ReplyEntry) :
    serveAll l (s.withEntries q o) = (serveAll l s).withEntries q o := by
  induction l generalizing s with
  | nil => rfl
  | cons e l ih =>
    show serveAll l (answerOf e (s.withEntries q o)).2 = _
    rw [answerOf_entriesApart]
    exact ih _

/-- What a RESTART leaves once the requests taken have acted (12 R185, 01 R7). -/
def restarted (s : State) : State :=
  { resetValues true s with outPass := cutPass s.outPass, retPass := cutPass s.retPass }

theorem restartEffect_eq (s : State) : restartEffect s = restarted (serveAll (awaiting s) s) := rfl

theorem restarted_withEntries (s : State) (q o : List ReplyEntry) : restarted (s.withEntries q o) = restarted s := rfl

theorem restartEffect_of_answered {s : State} (h : ∀ e ∈ awaiting s, e.answer ≠ none) : restartEffect s = restarted s := by
  rw [restartEffect_eq, serveAll_answered h]

/-- A row that serves an entry leaves what serving the entry leaves, with the answer in the entry (log 9). -/
theorem serveRow_answerOf {r : Request} {s : State} {e : ReplyEntry} (h : takesRequests s = true) (he : entryFor r s = some e) :
    ∃ rep, serveRow r s = (answerOf e s).2.withEntries (s.svc.queue.map (ReplyEntry.answered e.id rep))
      (s.svc.orphans.map (ReplyEntry.answered e.id rep)) := by
  obtain ⟨hnone, hreq⟩ := entryFor_spec he
  have hanswer : (answerOf e s).2 = linkRestart e (own r s).1 (serveNow r s).2 := by
    rw [answerOf, hnone, hreq]
    rfl
  refine ⟨(own r s).1, ?_⟩
  rw [serveRow_eq h he, hanswer, ← linkRestart_withEntries, ← (own_kept r s).queue, ← (own_kept r s).orphans]
  rfl

/-- An answer given ends no service: its entry waits for the result (10 R164; log 9). -/
theorem awaiting_answered (s t : State) (id : Nat) (rep : Reply) :
    awaiting (t.withEntries (s.svc.queue.map (ReplyEntry.answered id rep)) (s.svc.orphans.map (ReplyEntry.answered id rep)))
      = (awaiting s).map (ReplyEntry.answered id rep) := by
  have hkeeps : ((fun e : ReplyEntry => e.result.isNone) ∘ ReplyEntry.answered id rep) = fun e => e.result.isNone := by
    funext e
    simp only [Function.comp_apply, ReplyEntry.answered]
    split <;> rfl
  simp only [awaiting, State.withEntries, State.onSvc, ← List.map_append, List.filter_map, hkeeps]

/-- The effect of a RESTART serves the oldest request that has not acted as its row would, and goes on from there (12 R185; log 11). -/
theorem restartEffect_serves {r : Request} {s : State} {before after : List ReplyEntry} {e : ReplyEntry} (h : takesRequests s = true)
    (he : entryFor r s = some e) (hs : awaiting s = before ++ e :: after) (hbefore : ∀ x ∈ before, x.answer ≠ none)
    (hafter : ∀ x ∈ after, x.id ≠ e.id) : restartEffect s = restartEffect (serveRow r s) := by
  obtain ⟨rep, hrow⟩ := serveRow_answerOf h he
  have hawaiting : awaiting (serveRow r s) = (before ++ [e]).map (ReplyEntry.answered e.id rep) ++ after := by
    have hsame : after.map (ReplyEntry.answered e.id rep) = after :=
      (List.map_congr_left (g := id) fun x hx => if_neg (hafter x hx)).trans (List.map_id _)
    rw [hrow, awaiting_answered, hs, List.append_cons, List.map_append, hsame]
  have hanswered : ∀ x ∈ (before ++ [e]).map (ReplyEntry.answered e.id rep), x.answer ≠ none := by
    intro x hx
    obtain ⟨y, hy, rfl⟩ := List.mem_map.mp hx
    unfold ReplyEntry.answered
    split
    · exact nofun
    · rename_i hid
      rcases List.mem_append.mp hy with hy | hy
      · exact hbefore y hy
      · exact absurd (congrArg ReplyEntry.id (List.mem_singleton.mp hy)) hid
  calc restartEffect s = restarted (serveAll after (answerOf e s).2) := by
        rw [restartEffect_eq, hs, serveAll_append, serveAll_answered hbefore]
        rfl
    _ = restarted (serveAll after (serveRow r s)) := by rw [hrow, serveAll_withEntries, restarted_withEntries]
    _ = restartEffect (serveRow r s) := by rw [restartEffect_eq, hawaiting, serveAll_append, serveAll_answered hanswered]

/-! ### The service area of the RESTART's own frame -/

/-- A RESTART whose own entry alone is held takes effect as its reply is written (12 R184; log 11). -/
theorem passService_restarts {s : State} {p : Pass} {e : ReplyEntry} {rep : Reply} {n : Nat} (hp : s.retPass = some p)
    (hf : p.followed = true) (hcut : p.cut = false) (hin : serviceAt p.rx < p.rx.length) (hm : p.matched = some e.id)
    (hq : s.svc.queue = [e]) (ho : s.svc.orphans = []) (hres : e.result = some rep)
    (hre : s.store.restart = some { waited := n, entry := some e.id }) : passService s = restarted { removeEntry e.id s with
      retPass := some ({ p with matched := none }.write (serviceAt p.rx + 3) (replyBytes rep)) } := by
  have he : entryOfId e.id s = some e := by simp [entryOfId, hq]
  have hleft : (answerFrame p e s).svc.queue = [] ∧ (answerFrame p e s).svc.orphans = [] := by
    rw [answerFrame_present hres]
    exact ⟨by simp [removeEntry, hq], ho⟩
  have hdue : restartDue (answerFrame p e s) = true := by
    simp [restartDue, answerFrame_store, hre, isHeld, hleft]
  have hacted : ∀ x ∈ awaiting (answerFrame p e s), x.answer ≠ none := by simp [awaiting, hleft]
  have hpass : passService s = afterQueue (answerFrame p e s) := by simp [passService, hp, hf, hcut, hin, hm, he]
  rw [hpass, afterQueue, if_pos hdue, restartEffect_of_answered hacted, answerFrame_present hres]

/-! ### RESTART -/

/-- Settles O12: the judgement by its owner's answers, the wait by `LeadsWith` and the expiry that comes first, the requests taken one by one
(`restartEffect_serves`), the values of `restarted`, and the service area of the RESTART's own frame. -/
theorem restartJudgedAndTakesEffect : Obligations.RestartJudgedAndTakesEffect := by
  refine ⟨fun s htakes => ⟨fun hfreeze => ?barred, fun hfree h => ?state,
      fun hfree hbypass hsave => ⟨fun hwait => ?again, fun hnone => ?accepted⟩⟩,
    fun s w hw => ?effect, fun s p e rep n hp hf hcut hin hm hq ho hres hre => ?written⟩
  case barred => exact exec_restart_not_accepted htakes (ownRestart_barred hfreeze) nofun
  case state => exact exec_restart_not_accepted htakes (ownRestart_refused hfree h) nofun
  case again =>
    have hown := ownRestart_bypass hfree hbypass hsave
    rw [if_pos (Option.isSome_iff_ne_none.mpr hwait)] at hown
    exact exec_restart_not_accepted htakes hown nofun
  case accepted =>
    have hown := ownRestart_bypass hfree hbypass hsave
    rw [hnone] at hown
    exact exec_restart_accepted htakes hown
  case effect =>
    intro silenceAt first service
    have hleads (hfirst : first) : LeadsWith w s := (leadsWith_iff hw).mpr hfirst
    have hservice : service = awaiting s := awaiting_eq s
    refine ⟨fun hpending hfirst => ⟨fun hend => ?ends, fun hlater => ?counts⟩, fun n hactive he hn hle => ?silent,
      fun c before after e u hfirst htakes hs hbefore hnone hafter hasks hexec => ?serves, fun hfirst hacted => ?values⟩
    case ends =>
      rw [(hleads hfirst).exec_restartEffect, step, hpending]
      exact congrArg Host.Outcome.next ((hleads hfirst).elapse (by omega))
    case counts =>
      refine ⟨advanceTimers 1 s, ?_, ?_, rfl, rfl, rfl, rfl, rfl⟩
      · rw [step, hpending]
        exact congrArg Host.Outcome.next ((hleads hfirst).elapse_before (by omega))
      · simp [advanceTimers, hw]
    case silent =>
      have hleft : silenceLeft s = some (silenceAt - n) := silenceLeft_eq_some.mpr ⟨hactive, he, n, hn, rfl⟩
      exact (congrArg Host.Outcome.next (restartWaitEnds_silent hw hleft hle)).trans (leadsWith_silenceExpiry hw).exec_restartEffect.symm
    case serves =>
      obtain ⟨r, hc⟩ := requestIn_of_requestKind hasks.1
      obtain rfl : serveRow r s = u := Host.Outcome.next.inj ((exec_request hc s).symm.trans hexec)
      rw [hservice] at hs
      have he := entryFor_of_oldest hc hs (fun x hx hx' => absurd hx' (hbefore x hx)) hnone hasks
      have hwaits := serveRow_waitsAlike (r := r) htakes (by simp [hw])
      rw [(hleads hfirst).exec_restartEffect, (hwaits.leadsWith (hleads hfirst)).exec_restartEffect,
        restartEffect_serves htakes he hs hbefore hafter]
    case values =>
      rw [hservice] at hacted
      rw [(hleads hfirst).exec_restartEffect, restartEffect_of_answered hacted]
      rfl
  case written =>
    have hpass := passService_restarts hp hf hcut hin hm hq ho hres hre
    exact ⟨_, _, congrArg Host.Outcome.next hpass, rfl, rfl, rfl, rfl, rfl, rfl⟩

end Sys2Proof.Machine
end

section
/-! SUPPORT. The layouts of the five tables (13 Section 13.5): an entry in range fits the widths of its encoding, and each field stands at its
offset in its size, an absent report offset or group as all ones (13 R186). -/

namespace Sys2Proof.Machine

/-! ### Ranges and widths -/

/-- Every range of 08 R133 to R135 lies within the field's width of 13 Section 13.5, below the number that stands for an absent value. -/
theorem entryInRange.fits {e : Entry} (h : entryInRange e) : entryFits e := by
  cases e with
  | cell e =>
    obtain ⟨_, hstation, _, _, htolerance, hmiss, _, hstandstill, _, hlen, hreport⟩ := h
    refine ⟨by omega, by omega, by omega, by omega, by omega, by omega, fun r hr => ?_⟩
    have hle := hreport r hr
    omega
  | slots e =>
    cases e with
    | absent => trivial
    | present o i =>
      obtain ⟨ho, hi⟩ := h
      exact ⟨by omega, by omega⟩
  | rollers e =>
    obtain ⟨_, hscale, hdirection, _, hwindow, _, hjump, _, hforce, hmiss, _, hvmax, _, haMax, _, hdStop, _, htimeout, hgroup,
      htrimLo, htrimHi⟩ := h
    refine ⟨by omega, by omega, by omega, by omega, by omega, by omega, by omega, by omega, by omega, by omega, by omega,
      fun g hg => ?_, by omega, by omega⟩
    have hle := hgroup g hg
    omega
  | groups e =>
    obtain ⟨_, hmass, hset, hkp, hcorr, _, hslip, _, hblend⟩ := h
    exact ⟨by omega, by omega, by omega, by omega, by omega, by omega⟩
  | loads e =>
    obtain ⟨ha, hb, hc, _, hcreep⟩ := h
    exact ⟨by omega, by omega, by omega, by omega⟩

/-! ### Absent values -/

/-- An absent offset stands as all ones (13 R186). -/
theorem offsetBytes_eq (o : Option Nat) : offsetBytes o = leBytes 2 (o.getD 65535) := by cases o <;> rfl

/-- An absent group stands as all ones (13 R186). -/
theorem groupCode_eq (o : Option Nat) : groupCode o = o.getD 255 := by cases o <;> rfl

theorem getD_lt_succ {o : Option Nat} {n : Nat} (h : ∀ x, o = some x → x < n) : o.getD n < n + 1 := by
  cases o with
  | none => exact Nat.lt_succ_self n
  | some x => exact Nat.lt_succ_of_lt (h x rfl)

/-! ### Fields at their offsets -/

theorem cellBytes_numbers {e : CellEntry} (h : cellFits e) :
    let at' := numAt (cellBytes e)
    at' 0 1 = e.station ∧ at' 1 2 = e.cycleUs ∧ at' 3 2 = e.toleranceUs ∧ at' 5 1 = e.missLimit ∧ at' 6 2 = e.standstill
      ∧ at' 8 2 = e.slotAreaLen ∧ at' 10 2 = e.report.getD 65535 := by
  obtain ⟨hstation, hcycle, htolerance, hmiss, hstandstill, hlen, hreport⟩ := h
  obtain ⟨f0, f1, f3, f5, f6, f8, f10⟩ := cellBytes_fields e
  exact ⟨numAt_of_slice_lt f0 hstation, numAt_of_slice_lt f1 hcycle, numAt_of_slice_lt f3 htolerance, numAt_of_slice_lt f5 hmiss,
    numAt_of_slice_lt f6 hstandstill, numAt_of_slice_lt f8 hlen,
    numAt_of_slice_lt (f10.trans (offsetBytes_eq _)) (getD_lt_succ hreport)⟩

theorem slotsBytes_numbers {o i : Nat} (ho : o < 65536) (hi : i < 65536) :
    let at' := numAt (slotsBytes (.present o i))
    at' 0 1 = 1 ∧ at' 1 2 = o ∧ at' 3 2 = i :=
  ⟨rfl, numAt_of_slice_lt rfl ho, numAt_of_slice_lt rfl hi⟩

theorem rollersBytes_numbers {e : RollersEntry} (h : rollersFits e) :
    let at' := numAt (rollersBytes e)
    at' 0 4 = e.scale ∧ intAt (rollersBytes e) 4 1 = e.direction ∧ at' 5 1 = e.window ∧ at' 6 4 = e.jumpLimit ∧ at' 10 4 = e.forceLimit
      ∧ at' 14 1 = e.sampleMissLimit ∧ at' 15 4 = e.vmax ∧ at' 19 2 = e.aMax ∧ at' 21 2 = e.dStop ∧ at' 23 2 = e.stageTimeout
      ∧ at' 25 1 = e.group.getD 255 ∧ intAt (rollersBytes e) 26 4 = e.trim := by
  obtain ⟨hscale, hdirLo, hdirHi, hwindow, hjump, hforce, hmiss, hvmax, hamax, hdstop, htimeout, hgroup, htrimLo, htrimHi⟩ := h
  obtain ⟨f0, f4, f5, f6, f10, f14, f15, f19, f21, f23, f25, f26⟩ := rollersBytes_fields e
  rw [groupCode_eq] at f25
  exact ⟨numAt_of_slice_lt f0 hscale, fromLEInt_of_slice f4 (by omega) (by omega), numAt_of_slice_lt f5 hwindow,
    numAt_of_slice_lt f6 hjump, numAt_of_slice_lt f10 hforce, numAt_of_slice_lt f14 hmiss, numAt_of_slice_lt f15 hvmax,
    numAt_of_slice_lt f19 hamax, numAt_of_slice_lt f21 hdstop, numAt_of_slice_lt f23 htimeout,
    numAt_of_slice_lt f25 (getD_lt_succ hgroup), fromLEInt_of_slice f26 (by omega) (by omega)⟩

theorem groupsBytes_numbers {e : GroupsEntry} (h : groupsFits e) :
    let at' := numAt (groupsBytes e)
    at' 0 2 = e.mass ∧ at' 2 1 = e.loadSet ∧ at' 3 2 = e.kp ∧ at' 5 2 = e.corrMax ∧ at' 7 2 = e.slipLimit ∧ at' 9 2 = e.trackBlend := by
  obtain ⟨hmass, hset, hkp, hcorr, hslip, hblend⟩ := h
  obtain ⟨f0, f2, f3, f5, f7, f9⟩ := groupsBytes_fields e
  exact ⟨numAt_of_slice_lt f0 hmass, numAt_of_slice_lt f2 hset, numAt_of_slice_lt f3 hkp, numAt_of_slice_lt f5 hcorr,
    numAt_of_slice_lt f7 hslip, numAt_of_slice_lt f9 hblend⟩

theorem loadsBytes_numbers {e : LoadsEntry} (h : loadsFits e) :
    let at' := numAt (loadsBytes e)
    at' 0 2 = e.a ∧ at' 2 4 = e.b ∧ at' 6 2 = e.c ∧ at' 8 2 = e.vCreep := by
  obtain ⟨ha, hb, hc, hcreep⟩ := h
  obtain ⟨f0, f2, f6, f8⟩ := loadsBytes_fields e
  exact ⟨numAt_of_slice_lt f0 ha, numAt_of_slice_lt f2 hb, numAt_of_slice_lt f6 hc, numAt_of_slice_lt f8 hcreep⟩

/-! ### The layouts -/

/-- Settles O11: the range check gives the widths (`entryInRange.fits`), each entry is read back from its bytes, and each field's number from
the slice that stands at its offset. -/
theorem entriesReadBackFromTheirBytes : Obligations.EntriesReadBackFromTheirBytes := by
  refine ⟨fun e h => ((entryCheck_iff e).mp h).fits, fun e h => ⟨cellBytes_length e, ?cell⟩, fun e h => ⟨slotsBytes_length e, ?slots⟩,
    fun e h => ⟨rollersBytes_length e, ?rollers⟩, fun e h => ⟨groupsBytes_length e, ?groups⟩, fun e h => ⟨loadsBytes_length e, ?loads⟩,
    fun _ => cellBytes_numbers, ⟨rfl, fun _ _ => slotsBytes_numbers⟩, fun _ => rollersBytes_numbers, fun _ => groupsBytes_numbers,
    fun _ => loadsBytes_numbers⟩
  case cell => rw [entryOf, cellOf_cellBytes h]
  case slots => rw [entryOf, slotsOf_slotsBytes h, Option.map_some]
  case rollers => rw [entryOf, rollersOf_rollersBytes h]
  case groups => rw [entryOf, groupsOf_groupsBytes h]
  case loads => rw [entryOf, loadsOf_loadsBytes h]

end Sys2Proof.Machine
end

section
/-! SUPPORT. The queue of waiting commands: no part of the model's work touches it, so that every command answers a next state with the queue as it
was (00, How behaviour is stated). -/

namespace Sys2Proof.Machine

open Sys2Proof.Laws

theorem OnlyMotion.pending {s t : State} (h : OnlyMotion s t) : t.pending = s.pending := by rw [h]

theorem foldl_pending {α : Type} {f : State → α → State} (hf : ∀ s a, (f s a).pending = s.pending) (l : List α) (s : State) :
    (l.foldl f s).pending = s.pending :=
  foldl_keeps (P := fun t => t.pending = s.pending) (fun t a ht => (hf t a).trans ht) l rfl

/-! ### Requests and the reply queue -/

@[simp] theorem onEntry_pending (s : State) (id : Nat) (f : ReplyEntry → ReplyEntry) : (s.onEntry id f).pending = s.pending := rfl

@[simp] theorem linkRestart_pending (e : ReplyEntry) (rep : Reply) (s : State) : (linkRestart e rep s).pending = s.pending := by
  rw [linkRestart_only]

@[simp] theorem serveNow_pending (r : Request) (s : State) : (serveNow r s).2.pending = s.pending := (own_kept r s).pending

@[simp] theorem serveRow_pending (r : Request) (s : State) : (serveRow r s).pending = s.pending := by
  unfold serveRow
  split
  · simp only
    split <;> simp
  · rfl

@[simp] theorem answerOf_pending (e : ReplyEntry) (s : State) : (answerOf e s).2.pending = s.pending := by
  unfold answerOf
  split
  · rfl
  · split <;> simp

@[simp] theorem restartEffect_pending (s : State) : (restartEffect s).pending = s.pending :=
  foldl_pending (fun u e => answerOf_pending e u) (awaiting s) s

@[simp] theorem afterQueue_pending (s : State) : (afterQueue s).pending = s.pending := by
  unfold afterQueue
  split <;> simp

@[simp] theorem recordUnanswered_pending (e : ReplyEntry) (c : ResultCode) (s : State) : (recordUnanswered e c s).pending = s.pending := rfl

@[simp] theorem resultPresent_pending (e : ReplyEntry) (rep : Reply) (s : State) : (resultPresent e rep s).pending = s.pending := by
  unfold resultPresent
  split
  · rfl
  · simp only
    split <;> rfl

theorem completeService_pending (n : Nat) (s : State) : (completeService n s).pending = s.pending := by
  unfold completeService
  split <;> simp

@[simp] theorem removeEntry_pending (id : Nat) (s : State) : (removeEntry id s).pending = s.pending := rfl

@[simp] theorem dropEntry_pending (e : ReplyEntry) (s : State) : (dropEntry e s).pending = s.pending := by
  unfold dropEntry
  split <;> rfl

@[simp] theorem dropSilently_pending (e : ReplyEntry) (s : State) : (dropSilently e s).pending = s.pending := by rw [dropSilently_eq]

@[simp] theorem matchReturn_pending (cycle : BitVec 16) (s : State) : (matchReturn cycle s).2.pending = s.pending := by
  unfold matchReturn
  split
  · exact foldl_pending (fun u e => dropEntry_pending e u) _ s
  · rfl

@[simp] theorem makeRoom_pending (s : State) : (makeRoom s).pending = s.pending := by
  unfold makeRoom
  split
  · split <;> simp
  · rfl

@[simp] theorem takeFromFrame_pending (p : Pass) (s : State) : (takeFromFrame p s).pending = s.pending := by
  unfold takeFromFrame
  split
  · exact makeRoom_pending s
  · rfl

/-! ### Time that passes -/

@[simp] theorem silenceExpiry_pending (s : State) : (silenceExpiry s).pending = s.pending := (lineFault_onlyMotion _).pending

@[simp] theorem advanceTimers_pending (dt : Nat) (s : State) : (advanceTimers dt s).pending = s.pending := rfl

@[simp] theorem elapse_pending (inclusive : Bool) (dt : Nat) (s : State) : (elapse inclusive dt s).pending = s.pending := by
  have hsilent (b : Bool) : (if b then silenceExpiry s else s).pending = s.pending := by
    split <;> simp
  unfold elapse
  simp only
  split
  · simp
  · split <;> simp [hsilent]

theorem silenceEnds_pending (s : State) : (silenceEnds s).pending = s.pending := by
  unfold silenceEnds
  split <;> simp

theorem restartWaitEnds_pending (s : State) : (restartWaitEnds s).pending = s.pending := by
  unfold restartWaitEnds
  split <;> simp

/-! ### Frames in passage -/

@[simp] theorem clearBuffers_pending (s : State) : (clearBuffers s).pending = s.pending := rfl

theorem headerArrives_pending (port : Port) (f : LinkFrame) (s : State) : (headerArrives port f s).pending = s.pending := by
  unfold headerArrives
  split
  · cases port with
    | m => rfl
    | d =>
      have hmatch : (if (newPass s f).followed then matchReturn (frameCycle f.bytes) s else (none, s)).2.pending = s.pending := by
        split <;> simp
      exact (afterQueue_pending _).trans hmatch
  · rfl

theorem latchFirst_pending (s : State) : (latchFirst s).pending = s.pending := by
  unfold latchFirst
  repeat' split
  all_goals rfl

theorem passOutField_pending (i : Fin 4) (s : State) : (passOutField i s).pending = s.pending := by
  unfold passOutField
  repeat' split
  all_goals rfl

theorem passInField_pending (i : Fin 4) (s : State) : (passInField i s).pending = s.pending := by
  unfold passInField
  repeat' split
  all_goals rfl

theorem passReport_pending (s : State) : (passReport s).pending = s.pending := by
  unfold passReport
  repeat' split
  all_goals rfl

@[simp] theorem answerFrame_pending (p : Pass) (e : ReplyEntry) (s : State) : (answerFrame p e s).pending = s.pending := by
  unfold answerFrame
  split <;> simp

theorem passService_pending (s : State) : (passService s).pending = s.pending := by
  unfold passService
  repeat' split
  all_goals simp

@[simp] theorem checkBad_pending (s : State) : (checkBad s).pending = s.pending := rfl

theorem closeOut_pending (s : State) : (closeOut s).pending = s.pending := by
  unfold closeOut
  simp only
  repeat' split
  all_goals simp

@[simp] theorem cutCheck_pending (p : Pass) (s : State) : (cutCheck p s).pending = s.pending := by
  unfold cutCheck
  split <;> simp

@[simp] theorem cutReply_pending (p : Pass) (s : State) : (cutReply p s).pending = s.pending := by
  unfold cutReply
  repeat' split
  all_goals simp

theorem cutShort_pending (port : Port) (s : State) : (cutShort port s).pending = s.pending := by
  unfold cutShort
  repeat' split
  all_goals simp

/-! ### Acceptance -/

@[simp] theorem acceptedCycle_pending (order : List (Fin 4)) (e k : Nat) (resync : Bool) (s : State) :
    (acceptedCycle order e k resync s).pending = s.pending := by rw [acceptedCycle_only]

@[simp] theorem lineFault_pending (s : State) : (lineFault s).pending = s.pending := (lineFault_onlyMotion s).pending

@[simp] theorem acceptResync_pending (order : List (Fin 4)) (e gap : Nat) (cycle : BitVec 16) (s : State) :
    (acceptResync order e gap cycle s).pending = s.pending := by simp [acceptResync]

@[simp] theorem classify_pending (order : List (Fin 4)) (cycle : BitVec 16) (s : State) :
    (classify order cycle s).pending = s.pending := by
  unfold classify acceptFirst acceptOrdinary
  simp only
  repeat' split
  all_goals simp

@[simp] theorem goodReturn_pending (order : List (Fin 4)) (p : Pass) (s : State) : (goodReturn order p s).pending = s.pending := by
  unfold goodReturn
  repeat' split
  all_goals simp

theorem closeReturn_pending (dt : Nat) (order : List (Fin 4)) (s : State) : (closeReturn dt order s).pending = s.pending := by
  unfold closeReturn
  simp only
  repeat' split
  all_goals simp

/-! ### Reset events, pins and the store -/

theorem assertReset_pending (a b : Nat) (s : State) : (assertReset a b s).pending = s.pending := by
  unfold assertReset
  repeat' split
  all_goals rfl

@[simp] theorem withFreezeEntry_pending (s t : State) : (withFreezeEntry s t).pending = t.pending := by
  unfold withFreezeEntry
  split <;> rfl

theorem loadComplete_pending (s : State) : (loadComplete s).pending = s.pending := by
  have htables : (loadTables s).pending = s.pending := by
    unfold loadTables
    split <;> rfl
  unfold loadComplete
  split
  · simp [completeLoad, htables]
  · rfl

theorem saveDone_pending (v : Bool) (s : State) : (saveDone v s).pending = s.pending := by
  unfold saveDone
  repeat' split
  all_goals rfl

theorem traceAppends_pending (s : State) : (traceAppends s).pending = s.pending := by
  unfold traceAppends
  split <;> rfl

/-! ### Every command -/

/-- Settles O2: every arm of the dispatch answers the state its operation gives, and each operation leaves the queue as it is. -/
theorem everyCommandCompletes : Obligations.EveryCommandCompletes := by
  intro c s
  cases c with
  | powerUp | powerDown | resetRelease | certRelease => exact ⟨_, rfl, rfl⟩
  | resetAssert a b => exact ⟨_, rfl, assertReset_pending a b s⟩
  | storeLoadComplete => exact ⟨_, rfl, loadComplete_pending s⟩
  | passHeader port f => exact ⟨_, rfl, headerArrives_pending port f s⟩
  | frameCutShort port => exact ⟨_, rfl, cutShort_pending port s⟩
  | firstOutField => exact ⟨_, rfl, latchFirst_pending s⟩
  | outFieldPassage i => exact ⟨_, rfl, passOutField_pending i s⟩
  | inFieldPassage i => exact ⟨_, rfl, passInField_pending i s⟩
  | reportFieldArrival => exact ⟨_, rfl, passReport_pending s⟩
  | serviceAreaReturn => exact ⟨_, rfl, passService_pending s⟩
  | outboundCheckWord => exact ⟨_, rfl, closeOut_pending s⟩
  | serviceComplete n => exact ⟨_, rfl, completeService_pending n s⟩
  | returnCheckWord dt order => exact ⟨_, rfl, closeReturn_pending dt order s⟩
  | stageTimerExpiry i => exact ⟨_, rfl, (stageExpires_onlyMotion i s).pending⟩
  | loadBlendEnd g => exact ⟨_, rfl, (loadBlendEnds_onlyMotion g s).pending⟩
  | settleTimerExpiry g => exact ⟨_, rfl, (settleExpires_onlyMotion g s).pending⟩
  | trackBlendInEnd g => exact ⟨_, rfl, (trackBlendIn_onlyMotion g s).pending⟩
  | trackBlendOutEnd g => exact ⟨_, rfl, (trackBlendOut_onlyMotion g s).pending⟩
  | traceRecordAppend => exact ⟨_, rfl, traceAppends_pending s⟩
  | lineSilenceExpiry => exact ⟨_, rfl, silenceEnds_pending s⟩
  | certAssert => exact ⟨_, rfl, withFreezeEntry_pending s _⟩
  | saveComplete v => exact ⟨_, rfl, saveDone_pending v s⟩
  | restartEffect => exact ⟨_, rfl, restartWaitEnds_pending s⟩
  | _ => exact ⟨_, exec_request rfl s, serveRow_pending _ s⟩

end Sys2Proof.Machine
end
